-- ==== Sys2Proof/Word.lean ====
section
/-! DEFINITION. The words and index types of the GW-417: bytes, 32-bit registers, and the numbers of queues, rings, tags and
aperture entries. -/

namespace Sys2Proof

/-- One byte of a record, entry, block or request. -/
abbrev Byte := BitVec 8

/-- A register of the register port (R178, R180: 32-bit data). -/
abbrev Reg := BitVec 32

/-- WQ1 to WQ8 as 0 to 7: queue number minus one (R51). -/
abbrev WqId := Fin 8

/-- CQ0 to CQ3 (R113). -/
abbrev CqId := Fin 4

/-- The 32 request tags, 0 to 31 (R91). -/
abbrev TagId := Fin 32

/-- The sixteen aperture entries, 0 to 15 (R75). -/
abbrev ApId := Fin 16

/-- The queue number, 1 to 8, that records, registers and entries carry for a work queue. -/
def wqNumber (q : WqId) : Nat := q.val + 1

end Sys2Proof
end

