-- ==== Sys2Proof/Syntax.lean ====
section
/-! DEFINITION. The commands of the GW-417: one constructor of `Instr` for each row of spec/opcode_table.json. -/

namespace Sys2Proof

/-- What a DATA_OR_ACK_RESPONSE brings (R90, R96). -/
inductive Answer where
  /-- DATA: the answer to a READ, with the bytes of the request's range. -/
  | data (bytes : List Byte)
  /-- ACK: the answer to a WRITE that has been carried out. -/
  | ack
  deriving DecidableEq, Repr

/-- The three results a response can carry (R90). -/
inductive Result where
  | data (bytes : List Byte)
  | ack
  | error
  deriving DecidableEq, Repr

/-- One access at the register port (R170, R180): its direction, its width in bytes, the byte offset in the 64-byte window and,
for a write, the value. -/
structure Access where
  isWrite : Bool
  bytes : Nat
  offset : Nat
  value : Reg
  deriving DecidableEq, Repr

/-- The commands, in the table's order. A CONTROL row carries the value written to CONTROL, so that one write may change
several fields (R155); the admin rows carry nothing, because the record they execute is held by the admin unit (R132). -/
inductive Instr where
  /-- POWER_ON_RESET (R167, R180): RESET_N held low and released. -/
  | powerOnReset
  /-- SOFT_RESET (R166): a CONTROL write with SOFT_RESET 1. -/
  | softReset (value : Reg)
  /-- RUN_WRITTEN_1 (R156): a CONTROL write that changes RUN to 1. -/
  | runWritten1 (value : Reg)
  /-- RUN_WRITTEN_0 (R156): a CONTROL write that changes RUN to 0. -/
  | runWritten0 (value : Reg)
  /-- NOTIFY_ENABLE (R155): a CONTROL write that changes NOTIFY_ENABLE. -/
  | notifyEnable (value : Reg)
  /-- FLAGS_CLEAR (R169): a write of FLAGS. -/
  | flagsClear (value : Reg)
  /-- REGISTER_WRITE (R157, R170): a well-formed write to ROOT_LO, ROOT_HI, ID or STATUS. -/
  | registerWrite (offset : Nat) (value : Reg)
  /-- MISUSED_ACCESS (R170): an access that is not 32-bit aligned or names an unassigned offset. -/
  | misusedAccess (access : Access)
  /-- POST_WORK (R52, R53): a write of POST that does not name queue 0. -/
  | postWork (value : Reg)
  /-- POST_ADMIN (R130): a write of POST that names queue 0. -/
  | postAdmin (value : Reg)
  /-- CQ_ACK (R116, R117): a write of CQ_ACK. -/
  | cqAck (value : Reg)
  /-- UNKNOWN_OPCODE (R135): the admin unit executes a record whose opcode is not assigned. -/
  | unknownOpcode
  /-- SET_ENGINE (R138). -/
  | setEngine
  /-- CONFIGURE_QUEUE (R139, R140). -/
  | configureQueue
  /-- ENABLE_QUEUE (R141). -/
  | enableQueue
  /-- DISABLE_QUEUE (R142, R143). -/
  | disableQueue
  /-- DISABLE_QUEUE_APPLIED (R143): a DISABLE QUEUE that waited for a free entry looks at its queue again. -/
  | disableQueueApplied
  /-- ABORT_QUEUE (R144, R145). -/
  | abortQueue
  /-- RESUME_QUEUE (R146). -/
  | resumeQueue
  /-- CONFIGURE_CQ (R147, R148). -/
  | configureCq
  /-- LOAD_APERTURE (R149). -/
  | loadAperture
  /-- CLEAR_APERTURE (R149). -/
  | clearAperture
  /-- READ_STATISTICS (R150, R151). -/
  | readStatistics
  /-- QUERY_QUEUE (R152). -/
  | queryQueue
  /-- MARK (R153), the admin command. -/
  | mark
  /-- TAKE_UP (R131). -/
  | takeUp
  /-- FETCH_ISSUE (R61). -/
  | fetchIssue
  /-- DATA_OR_ACK_RESPONSE (R96). -/
  | dataOrAckResponse (tag : BitVec 8) (answer : Answer)
  /-- ERROR_RESPONSE (R97). -/
  | errorResponse (tag : BitVec 8)
  /-- REQUEST_TIMEOUT (R98). -/
  | requestTimeout (tag : TagId)
  /-- LATE_RESPONSE (R99). -/
  | lateResponse (tag : BitVec 8) (result : Result)
  /-- STRAY_RESPONSE (R102). -/
  | strayResponse (tag : BitVec 8) (result : Result)
  /-- AGE_TIMER_EXPIRY (R122). -/
  | ageTimerExpiry (ring : CqId)
  /-- STOP_GRACE_EXPIRY (R164). -/
  | stopGraceExpiry
  deriving DecidableEq, Repr

end Sys2Proof
end

