-- ==== Sys2Proof/Decode.lean ====
section
/-! DEFINITION. The command a word spells by the table's bits. spec/opcode_table.json gives NO row bits ("fixed" and "fields"
are absent or empty for all 34 rows; 98_reader.md: n_rows_with_fixed 0), so no word spells a command (log 18). -/

namespace Sys2Proof

/-- No row of the table gives bits: every word is rejected. -/
def decodeTableWord (_nbits _w : Nat) : Option Instr := none

end Sys2Proof
end

