-- ==== Sys2Proof/Config.lean ====
section
/-! DEFINITION. What the spec fixes as numbers for the whole part, and the free values of the model. -/

namespace Sys2Proof.Config

/-- Where every 32-bit counter stops (00 section 6.3, R73, R103, R127, R171). -/
def counterMax : Nat := 4294967295

/-- One past the highest engine or system address: 2^48 (00 section 6.3). -/
def addressLimit : Nat := 281474976710656

/-- The entries of the pending list (R108). -/
def pendingEntries : Nat := 16

/-- FREE tags below which the mover is granted none (R93). -/
def moverNeeds : Nat := 5

/-- The request timeout after a reset, in µs (R100, R171). -/
def resetTimeout : Nat := 1000

/-- The stop grace after a reset, in ms (R171). -/
def resetGrace : Nat := 20

/-- DESIGN CHOICE (log 10, safe): byte `i` of a DATA response that carries fewer bytes than its request asked for. R90 gives a
DATA response the bytes of the request's range and says nothing of a shorter one; the value is free. -/
opaque absentByte : Nat → Byte

/-- FREE VALUE (log 6, safe): whether the scheduler's claim is taken first at contest `n` for a freed pending-list entry. R109 lets
either order occur. -/
opaque schedulerClaimsFirst : Nat → Bool

/-- FREE VALUE (log 13, safe): how many register accesses and responses arrive while RESET_N is low, at the power-on reset of number
`n`. R180 says what becomes of them and leaves the length of the reset to the board. -/
opaque eventsWhileLow : Nat → Nat

end Sys2Proof.Config
end

