-- ==== Sys2Proof/Machine/State.lean ====
section
/-! DEFINITION. The state of the GW-417: every register, ring, slot, list, timer and counter the spec gives its ten blocks, as
plain data; the reasons a step can stop; and the machine after power-on reset. -/

namespace Sys2Proof.Machine

/-- Reasons for which the block stops with a fault. There are none: the spec gives every event an effect, so no meaning
raises a fault, and the type has no constructor. Safe: nothing is cut off. -/
inductive Fault : Type
  deriving DecidableEq, Repr

/-- Reasons for which a command has no meaning. -/
inductive Refusal where
  /-- A command whose arm has no meaning yet; raised by an arm of `exec` alone. Safe (the machine stops). No arm raises it. -/
  | notModelled (mnemonic : String)
  deriving DecidableEq, Repr

/-! ## Engine control (chapter 8) -/

/-- The five engine states (R154). -/
inductive EngineState where
  | stopped | starting | running | stopping | failed
  deriving DecidableEq, Repr

/-- The failure cause (R158, R168). -/
inductive FailCause where
  | none | rootRead | rootInvalid
  deriving DecidableEq, Repr

/-- The read of the root block made by the admin unit for engine control (R158). -/
inductive RootRead where
  | none | waiting | issued
  deriving DecidableEq, Repr

/-- The stop-grace timer (R164): stopped, running with its period in ms, or expired with the stop not yet complete (R125). -/
inductive GraceTimer where
  | stopped
  | running (ms : Nat)
  | expired
  deriving DecidableEq, Repr

/-- FLAGS: the four sticky flags (R169). -/
structure StickyFlags where
  postReject : Bool
  ackReject : Bool
  stray : Bool
  badAccess : Bool
  deriving DecidableEq, Repr

/-- The six engine counters (R171). -/
structure EngineCounters where
  requestTimeouts : Nat
  lateResponses : Nat
  strayResponses : Nat
  rejectedPosts : Nat
  rejectedAcks : Nat
  droppedAtStop : Nat
  deriving DecidableEq, Repr

/-! ## Memory port (chapter 5) -/

/-- READ or WRITE (R89). -/
inductive ReqKind where
  | read | write
  deriving DecidableEq, Repr

/-- The client that owns a tag (R91), with the one of its requests that the tag carries. -/
inductive Owner where
  /-- The completion unit: the write of an entry into this ring (R112). -/
  | completion (ring : CqId)
  /-- The admin unit: the read of an admin record (R131). -/
  | adminRecord
  /-- The admin unit for engine control: the read of the root block (R158). -/
  | rootRead
  /-- The admin unit: write `k` of a statistics block or queue report (R151, R152). -/
  | adminWrite (k : Nat)
  /-- The fetch unit: the read of a work record (R61). -/
  | fetch
  /-- The mover: request `k` of the segment in flight (R13). -/
  | mover (k : Nat)
  deriving DecidableEq, Repr

/-- The state of one request tag (R91); `timer` is the period in µs with which its timer started (R95, R98). -/
inductive TagState where
  | free
  | inUse (owner : Owner) (kind : ReqKind) (address length timer : Nat)
  | stale
  deriving DecidableEq, Repr

/-- A request as it was sent to system memory (R89). -/
structure Request where
  tag : TagId
  kind : ReqKind
  address : Nat
  length : Nat
  data : List Byte
  deriving DecidableEq, Repr

/-! ## Queue file and fetch unit (chapter 3) -/

/-- The five queue states (R51). -/
inductive QueueState where
  | disabled | idle | running | suspended | halted
  deriving DecidableEq, Repr

/-- The fault policy (R68, R69). -/
inductive FaultPolicy where
  | halt | skip
  deriving DecidableEq, Repr

/-- The halt cause (R57). -/
inductive HaltCause where
  | none | record | fetch
  deriving DecidableEq, Repr

/-- A staging slot (R58); `filling` may carry the cancelled marker, `full` holds the copy of the record's 64 bytes. -/
inductive Slot where
  | empty
  | filling (cancelled : Bool)
  | full (bytes : List Byte)
  deriving DecidableEq, Repr

/-- The descriptor of one work queue (R51) with its five counters (R73). -/
structure Queue where
  ringBase : Nat
  ringSize : Nat
  level : Nat
  ring : Option CqId
  policy : FaultPolicy
  state : QueueState
  head : Nat
  tail : Nat
  drain : Bool
  abortPending : Bool
  haltCause : HaltCause
  hold : Bool
  slot : Slot
  endedOk : Nat
  endedFault : Nat
  endedAborted : Nat
  timesSuspended : Nat
  discarded : Nat
  deriving DecidableEq, Repr

/-- The fetch in flight (section 3.6): the queue, the ring index being read, the ring its reservation is bound for, and whether
its request has been issued. -/
structure Fetch where
  queue : WqId
  index : Nat
  ring : CqId
  issued : Bool
  deriving DecidableEq, Repr

/-! ## Scheduler and mover (chapters 1 and 2) -/

/-- The fields of a work record (R1, R173). `reserved` holds the bytes of the reserved parts; codes are as written. -/
structure WorkRecord where
  type : Nat
  width : Nat
  flags : Nat
  tag : Nat
  source : Nat
  dest : Nat
  rowLength : Nat
  rows : Nat
  sourceStride : Int
  destStride : Int
  pattern : List Byte
  reserved : List Byte
  deriving DecidableEq, Repr

/-- A context (R26). `ring` is the completion ring its reservation is bound for; its place is `State.active` or a position of
`State.stack`. -/
structure Context where
  queue : WqId
  level : Nat
  record : WorkRecord
  index : Nat
  row : Nat
  offset : Nat
  done : Nat
  ring : CqId
  deriving DecidableEq, Repr

/-- SOURCE or DEST (R16). -/
inductive Operand where
  | source | dest
  deriving DecidableEq, Repr

/-- The range of one operand of a segment: engine address, system address and length (section 1.4). -/
structure OperandRange where
  engine : Nat
  system : Nat
  length : Nat
  deriving DecidableEq, Repr

/-- A request of a segment, a statistics block or a queue report: waiting for a tag, issued, or resolved (section 1.4, R151). -/
inductive Progress where
  | waiting | issued | resolved
  deriving DecidableEq, Repr

/-- One memory request of the segment in flight (R12). `data` is what a WRITE carries, or what a READ has brought. -/
structure SegRequest where
  operand : Operand
  kind : ReqKind
  engine : Nat
  system : Nat
  length : Nat
  progress : Progress
  data : List Byte
  deriving DecidableEq, Repr

/-- The first failure taken in a segment (R22): an error response or a timeout, with its operand and engine address (R16). -/
structure SegFailure where
  timeout : Bool
  operand : Operand
  engine : Nat
  deriving DecidableEq, Repr

/-- The phase of the segment in flight (R14). -/
inductive Phase where
  | reading | writing | settling
  deriving DecidableEq, Repr

/-- The segment in flight (section 1.4). `requests` are those of the present phase; `readData` is the source data that a COPY
has read once its reads are done. -/
structure Segment where
  length : Nat
  source : Option OperandRange
  dest : Option OperandRange
  requests : List SegRequest
  readData : List Byte
  failure : Option SegFailure
  phase : Phase
  deriving DecidableEq, Repr

/-! ## Aperture table (chapter 4) -/

/-- The kind of an aperture (R75). -/
inductive ApertureKind where
  | direct | translate | deny
  deriving DecidableEq, Repr

/-- One entry of the aperture table (R75); bit `k − 1` of `queues` names WQk (R174). -/
structure Aperture where
  valid : Bool
  kind : ApertureKind
  exponent : Nat
  base : Nat
  target : Nat
  read : Bool
  write : Bool
  queues : Byte
  deriving DecidableEq, Repr

/-- What a lookup's fault says (R78). -/
inductive LookupFault where
  | none | denied | queue | rights
  deriving DecidableEq, Repr

/-- A waiting update of the table (R83): `entry` is the load's contents, or absent for a clear. -/
structure ApertureUpdate where
  index : ApId
  entry : Option Aperture
  deriving DecidableEq, Repr

/-! ## Completion unit (chapter 6) -/

/-- The statuses of a completion entry (R120). -/
inductive Status where
  | ok | mismatch | aborted | stopped
  | malformed | align | aperture | memError | memTimeout
  | fetchError | busy | invalid | notReady | unknown | drained
  deriving DecidableEq, Repr

/-- The sub-statuses of all statuses (R175). -/
inductive Sub where
  | none
  | immediate | deferred | unchanged | stacked | active | outcomeOk | outcomeMismatch | outcomeFault | skipped | skipIgnored
  | badType | badReserved | badWidth | badLength | badFlags | badRange
  | alignSource | alignDest | alignLength | alignStride
  | lookup (fault : LookupFault) (operand : Operand)
  | memory (operand : Operand)
  | fetchError | fetchTimeout
  | invalidReserved | invalidIndex | invalidParameter
  | byDrain | byAbort | byStop
  deriving DecidableEq, Repr

/-- The contents of a completion entry but for its phase (R120); `queue` is 0 for admin entries, 1 to 8 otherwise. -/
structure Entry where
  status : Status
  sub : Sub
  queue : Nat
  tag : Nat
  head : Nat
  progress : Nat
  detail : Nat
  deriving DecidableEq, Repr

/-- The holder of a reservation (R109). -/
inductive Holder where
  /-- The scheduler, for the context of this queue. -/
  | context (queue : WqId)
  /-- The fetch unit. -/
  | fetch
  /-- The admin unit, for the record in its hands. -/
  | adminRecord
  /-- The admin unit's reservation handed over to the drain of this queue. -/
  | drain (queue : WqId)
  deriving DecidableEq, Repr

/-- A reserved pending-list entry (R108). -/
structure Reservation where
  holder : Holder
  ring : CqId
  deriving DecidableEq, Repr

/-- An occupied pending-list entry (R108); its place in the order of placement is its place in `State.occupied`. -/
structure Occupied where
  ring : CqId
  entry : Entry
  notifyNow : Bool
  inFlight : Bool
  deriving DecidableEq, Repr

/-- The state of a completion ring (R113). -/
inductive RingState where
  | unconfigured | active | broken
  deriving DecidableEq, Repr

/-- The descriptor of one completion ring (R113) with its two counters (R127); a running age timer holds its µs. -/
structure Ring where
  state : RingState
  base : Nat
  size : Nat
  head : Nat
  tail : Nat
  phase : Bool
  threshold : Nat
  ageLimit : Nat
  notifyPending : Bool
  unannounced : Nat
  ageTimer : Option Nat
  written : Nat
  discarded : Nat
  deriving DecidableEq, Repr

/-! ## Admin unit (chapter 7) -/

/-- One write of a statistics block or queue report (R151, R152). -/
structure AdminWrite where
  address : Nat
  data : List Byte
  progress : Progress
  deriving DecidableEq, Repr

/-- The first failed write of a block or report: TIMEOUT or ERROR, and its system address (R151). -/
structure WriteFailure where
  timeout : Bool
  address : Nat
  deriving DecidableEq, Repr

/-- The point a record in EXECUTING has reached (R128, R137). -/
inductive AdminPoint where
  /-- The data has been taken and the checks of R135 made (R132), with this refusal or none; the record is completed or carried out
  before any other event (log 5). -/
  | checked (refusal : Option (Status × Sub))
  /-- A DISABLE QUEUE waits for a free pending-list entry (R143). -/
  | waitEntry (queue : WqId)
  /-- An ABORT QUEUE waits for the scheduler's report (R144). -/
  | waitReport (queue : WqId)
  /-- A LOAD or CLEAR APERTURE waits for its update (R149). -/
  | waitUpdate
  /-- READ STATISTICS or QUERY QUEUE waits for its writes (R151, R152). -/
  | writing (writes : List AdminWrite) (failure : Option WriteFailure)
  deriving DecidableEq, Repr

/-- The admin unit (R128). -/
inductive AdminState where
  | idle
  | fetching (index : Nat) (issued : Bool)
  | executing (record : List Byte) (point : AdminPoint)
  | halted (index : Nat)
  deriving DecidableEq, Repr

/-- The admin ring (R129). -/
structure AdminRing where
  base : Nat
  size : Nat
  head : Nat
  tail : Nat
  deriving DecidableEq, Repr

/-! ## The whole machine -/

/-- Everything the spec gives the engine, and the queue of waiting commands. -/
structure State where
  /-- The commands that wait, first in, first out (the row's own; no rule). -/
  pending : List Instr
  -- register port and engine control
  /-- RESET_N: how many more register accesses and responses arrive while it is low and holds the engine in power-on reset (R180);
  with 0 it is high (log 13). -/
  heldEvents : Nat
  /-- The model's own: how many power-on resets there have been; the free value of log 13 is read at it. -/
  resetTurn : Nat
  run : Bool
  notifyEnable : Bool
  rootLo : Reg
  rootHi : Reg
  flags : StickyFlags
  engine : EngineState
  cause : FailCause
  rootInUse : BitVec 64
  rootRead : RootRead
  requestTimeout : Nat
  stopGrace : Nat
  graceTimer : GraceTimer
  counters : EngineCounters
  /-- The model's own: what the register port answered to the last misused or routed read (log 12). -/
  readData : Reg
  -- memory port
  tags : Vector TagState 32
  /-- The model's own: every request sent to system memory, oldest first (log 11). -/
  sent : List Request
  -- queue file and fetch unit
  queues : Vector Queue 8
  fetch : Option Fetch
  -- scheduler and mover
  currentLevel : Nat
  active : Option Context
  /-- The context stack, TOP FIRST: the last element is position 1 (R27). -/
  stack : List Context
  startOrder : List WqId
  segment : Option Segment
  /-- The model's own: the scheduler's claim of a freed entry may stand behind another holder's, the next command (R109, log 6). -/
  claimDeferred : Bool
  /-- The model's own: how many contests for a freed entry have been decided; the free value of log 6 is read at it. -/
  claimTurn : Nat
  -- aperture table
  apertures : Vector Aperture 16
  waitingUpdate : Option ApertureUpdate
  -- completion unit
  reserved : List Reservation
  /-- Occupied entries, oldest placement first (R108). -/
  occupied : List Occupied
  rings : Vector Ring 4
  -- admin unit
  admin : AdminState
  adminRing : AdminRing
  deriving DecidableEq, Repr

/-! ## Reset values -/

/-- A work queue after either reset (R51, R72, R73). -/
def Queue.reset : Queue :=
  { ringBase := 0, ringSize := 0, level := 0, ring := none, policy := .halt, state := .disabled, head := 0, tail := 0,
    drain := false, abortPending := false, haltCause := .none, hold := false, slot := .empty,
    endedOk := 0, endedFault := 0, endedAborted := 0, timesSuspended := 0, discarded := 0 }

/-- A completion ring after either reset (R113, R126, R127). -/
def Ring.reset : Ring :=
  { state := .unconfigured, base := 0, size := 0, head := 0, tail := 0, phase := false, threshold := 0, ageLimit := 0,
    notifyPending := false, unannounced := 0, ageTimer := none, written := 0, discarded := 0 }

/-- An aperture entry after either reset: not valid (R88). DESIGN CHOICE (log 15, unsafe but never read): its other fields. -/
def Aperture.reset : Aperture :=
  { valid := false, kind := .direct, exponent := 0, base := 0, target := 0, read := false, write := false, queues := 0 }

/-- The start order after either reset: WQ1 to WQ8 (R29). -/
def startOrderReset : List WqId := [0, 1, 2, 3, 4, 5, 6, 7]

/-- FLAGS after either reset (R169). -/
def StickyFlags.reset : StickyFlags := ⟨false, false, false, false⟩

/-- The engine counters after either reset (R171). -/
def EngineCounters.reset : EngineCounters := ⟨0, 0, 0, 0, 0, 0⟩

/-- The admin ring after either reset and when STOPPED is reached (R129). -/
def AdminRing.reset : AdminRing := ⟨0, 0, 0, 0⟩

/-- The machine right after power-on reset (R167), with no command waiting. -/
def State.reset : State :=
  { pending := [], heldEvents := 0, resetTurn := 0,
    run := false, notifyEnable := false, rootLo := 0, rootHi := 0, flags := StickyFlags.reset,
    engine := .stopped, cause := .none, rootInUse := 0, rootRead := .none,
    requestTimeout := Config.resetTimeout, stopGrace := Config.resetGrace, graceTimer := .stopped,
    counters := EngineCounters.reset, readData := 0,
    tags := Vector.replicate 32 .free, sent := [],
    queues := Vector.replicate 8 Queue.reset, fetch := none,
    currentLevel := 0, active := none, stack := [], startOrder := startOrderReset, segment := none,
    claimDeferred := false, claimTurn := 0,
    apertures := Vector.replicate 16 Aperture.reset, waitingUpdate := none,
    reserved := [], occupied := [], rings := Vector.replicate 4 Ring.reset,
    admin := .idle, adminRing := AdminRing.reset }

end Sys2Proof.Machine
end

