-- ==== Sys2Proof/Machine/Operands.lean ====
section
/-! DEFINITION. The byte layouts of chapter 9 and the fields the blocks read from them or write into them: the work record, the
admin record, the root block, the completion entry, the statistics block and the queue report. Little-endian (R172). -/

namespace Sys2Proof.Machine

/-! ## Bytes and numbers (R172) -/

/-- The unsigned value of little-endian bytes. -/
def leNat : List Byte → Nat
  | [] => 0
  | b :: bs => b.toNat + 256 * leNat bs

/-- The `n` little-endian bytes of a value, higher bits dropped. -/
def leBytes : Nat → Nat → List Byte
  | 0, _ => []
  | n + 1, v => BitVec.ofNat 8 v :: leBytes n (v / 256)

/-- The bytes at `off`, `len` of them. -/
def slice (bytes : List Byte) (off len : Nat) : List Byte := (bytes.drop off).take len

/-- The unsigned field of `len` bytes at `off`. -/
def field (bytes : List Byte) (off len : Nat) : Nat := leNat (slice bytes off len)

/-- The signed 32-bit field at `off`, in two's complement (R172). -/
def signed32 (bytes : List Byte) (off : Nat) : Int := (BitVec.ofNat 32 (field bytes off 4)).toInt

/-- Whether every byte is zero. -/
def allZero (bytes : List Byte) : Bool := bytes.all (· == 0)

/-- Bit `k` of a number that stands for a field of bits. -/
def bitOf (v k : Nat) : Bool := v / 2 ^ k % 2 == 1

/-- `n` zero bytes. -/
def zeros (n : Nat) : List Byte := List.replicate n 0

/-- The `len` bytes a DATA response brings for its request (R90); a byte it does not carry is free (log 10). -/
def responseBytes (len : Nat) (bytes : List Byte) : List Byte :=
  (List.range len).map fun i => bytes.getD i (Config.absentByte i)

/-- Whether a value is a power of two from `lo` to `hi`, for the ring sizes of R49, R113, R129. -/
def powerOfTwoIn (lo hi n : Nat) : Bool :=
  decide (lo ≤ n) && decide (n ≤ hi) && (List.range 13).any (fun k => 2 ^ k == n)

/-! ## The work record (R1, R173) -/

/-- The record's fields, read from the 64 bytes in the staging slot. -/
def workRecord (b : List Byte) : WorkRecord :=
  { type := field b 0 1, width := field b 1 1, flags := field b 2 2, tag := field b 4 2,
    source := field b 8 6, dest := field b 16 6, rowLength := field b 24 2, rows := field b 26 2,
    sourceStride := signed32 b 32, destStride := signed32 b 36, pattern := slice b 40 8,
    reserved := slice b 6 2 ++ slice b 14 2 ++ slice b 22 2 ++ slice b 28 4 ++ slice b 48 16 }

/-- Type codes (R173). -/
def typeCopy : Nat := 1
def typeFill : Nat := 2
def typeCompare : Nat := 3
def typeMark : Nat := 4

/-- Flag bits 0, 1 and 2 (R173, section 1.2). -/
def WorkRecord.suppress (r : WorkRecord) : Bool := bitOf r.flags 0
def WorkRecord.notifyNow (r : WorkRecord) : Bool := bitOf r.flags 1
def WorkRecord.swap (r : WorkRecord) : Bool := bitOf r.flags 2

/-- Whether the type uses a source (R1, R2). -/
def WorkRecord.usesSource (r : WorkRecord) : Bool := r.type == typeCopy || r.type == typeCompare

/-- The bytes of data of a record: row length times rows (R1). -/
def WorkRecord.dataLength (r : WorkRecord) : Nat := r.rowLength * r.rows

/-- The engine address of the start of row `row` of an operand: exact, without wrap (R1). -/
def rowStart (address : Nat) (stride : Int) (row : Nat) : Int := (address : Int) + (row : Int) * stride

/-! ## The admin record (R174) -/

def adminOpcode (b : List Byte) : Nat := field b 0 1
def adminIndex (b : List Byte) : Nat := field b 1 1
def adminOptions (b : List Byte) : Nat := field b 2 2
def adminTag (b : List Byte) : Nat := field b 4 2

/-- Opcode codes (R174). -/
def opSetEngine : Nat := 0x01
def opConfigureQueue : Nat := 0x02
def opEnableQueue : Nat := 0x03
def opDisableQueue : Nat := 0x04
def opAbortQueue : Nat := 0x05
def opResumeQueue : Nat := 0x06
def opConfigureCq : Nat := 0x07
def opLoadAperture : Nat := 0x08
def opClearAperture : Nat := 0x09
def opReadStatistics : Nat := 0x0A
def opQueryQueue : Nat := 0x0B
def opMark : Nat := 0x0C

/-- What R174's table gives an opcode: the range of its target index (none for "none"), the number of named option bits (they
are the lowest), and the offset and length of each placed parameter. -/
structure OpcodeRow where
  index : Option (Nat × Nat)
  optionBits : Nat
  placed : List (Nat × Nat)

/-- The rows of R174's table; `none` for an opcode that is not assigned. -/
def opcodeRow (op : Nat) : Option OpcodeRow :=
  if op = opSetEngine then some ⟨none, 0, [(8, 4), (12, 4)]⟩
  else if op = opConfigureQueue then some ⟨some (1, 8), 0, [(8, 8), (16, 2), (18, 1), (19, 1), (20, 1)]⟩
  else if op = opEnableQueue then some ⟨some (1, 8), 0, []⟩
  else if op = opDisableQueue then some ⟨some (1, 8), 0, []⟩
  else if op = opAbortQueue then some ⟨some (1, 8), 0, []⟩
  else if op = opResumeQueue then some ⟨some (1, 8), 1, []⟩
  else if op = opConfigureCq then some ⟨some (1, 3), 0, [(8, 8), (16, 2), (18, 2), (20, 4)]⟩
  else if op = opLoadAperture then some ⟨some (0, 15), 0, [(8, 1), (9, 1), (10, 1), (11, 1), (16, 8), (24, 8)]⟩
  else if op = opClearAperture then some ⟨some (0, 15), 0, []⟩
  else if op = opReadStatistics then some ⟨none, 1, [(8, 8)]⟩
  else if op = opQueryQueue then some ⟨some (1, 8), 0, [(8, 8)]⟩
  else if op = opMark then some ⟨none, 0, []⟩
  else none

/-- Whether a parameter byte at `off` lies in a placed field. -/
def isPlaced (placed : List (Nat × Nat)) (off : Nat) : Bool :=
  placed.any fun p => decide (p.1 ≤ off) && decide (off < p.1 + p.2)

/-- The parameter offsets of an admin record: 8 to 63 (R174). -/
def parameterOffsets : List Nat := List.range' 8 56

/-- Admin check 2 (R135, R174): reserved bytes, an index where there is none, unnamed option bits, unplaced parameter bytes and
the reserved bits of the LOAD APERTURE rights byte are zero. -/
def adminReservedOk (row : OpcodeRow) (b : List Byte) : Bool :=
  allZero (slice b 6 2)
  && (row.index.isSome || adminIndex b == 0)
  && adminOptions b / 2 ^ row.optionBits == 0
  && parameterOffsets.all (fun off => isPlaced row.placed off || b.getD off 0 == 0)
  && (adminOpcode b != opLoadAperture || field b 10 1 / 4 == 0)

/-- Admin check 3 (R135): the target index lies in the opcode's range. -/
def adminIndexOk (row : OpcodeRow) (b : List Byte) : Bool :=
  match row.index with
  | none => true
  | some (lo, hi) => decide (lo ≤ adminIndex b) && decide (adminIndex b ≤ hi)

/-- A ring of `size` slots of `slotBytes` at `base` that is aligned to 4 KiB and ends below 2^48 (R139, R147, R160). -/
def ringPlaceOk (base size slotBytes : Nat) : Bool :=
  base % 4096 == 0 && decide (base + slotBytes * size ≤ Config.addressLimit)

/-- SET ENGINE's parameters (R138). -/
def paramTimeout (b : List Byte) : Nat := field b 8 4
def paramGrace (b : List Byte) : Nat := field b 12 4

/-- CONFIGURE QUEUE's parameters (R139, R174). -/
def paramRingBase (b : List Byte) : Nat := field b 8 8
def paramRingSize (b : List Byte) : Nat := field b 16 2
def paramLevel (b : List Byte) : Nat := field b 18 1
def paramRing (b : List Byte) : Nat := field b 19 1
def paramPolicy (b : List Byte) : Nat := field b 20 1

/-- CONFIGURE CQ's parameters (R147, R174). -/
def paramThreshold (b : List Byte) : Nat := field b 18 2
def paramAgeLimit (b : List Byte) : Nat := field b 20 4

/-- LOAD APERTURE's parameters (R82, R174). -/
def paramKind (b : List Byte) : Nat := field b 8 1
def paramExponent (b : List Byte) : Nat := field b 9 1
def paramRights (b : List Byte) : Nat := field b 10 1
def paramQueues (b : List Byte) : Nat := field b 11 1
def paramBase (b : List Byte) : Nat := field b 16 8
def paramTarget (b : List Byte) : Nat := field b 24 8

/-- READ STATISTICS' and QUERY QUEUE's address (R150, R152). -/
def paramAddress (b : List Byte) : Nat := field b 8 8

/-- The kind a LOAD APERTURE names: 1 DIRECT, 2 TRANSLATE, 3 DENY (R174). -/
def apertureKind (code : Nat) : ApertureKind :=
  if code = 1 then .direct else if code = 2 then .translate else .deny

/-- LOAD APERTURE's requirements but for the index (R82). -/
def loadApertureOk (b : List Byte) : Bool :=
  let e := paramExponent b
  decide (1 ≤ paramKind b) && decide (paramKind b ≤ 3)
  && decide (12 ≤ e) && decide (e ≤ 47)
  && decide (paramBase b < Config.addressLimit) && paramBase b % 2 ^ e == 0
  && (if paramKind b = 2 then decide (paramTarget b < Config.addressLimit) && paramTarget b % 2 ^ e == 0
      else paramTarget b == 0)
  && (paramKind b != 3 || paramRights b == 0)
  && paramQueues b != 0

/-- Admin check 4 (R135): the parameter values lie in their ranges and meet their alignments. -/
def adminParametersOk (b : List Byte) : Bool :=
  let op := adminOpcode b
  if op = opSetEngine then
    decide (1 ≤ paramTimeout b) && decide (paramTimeout b ≤ 65535)
    && decide (1 ≤ paramGrace b) && decide (paramGrace b ≤ 255)
  else if op = opConfigureQueue then
    ringPlaceOk (paramRingBase b) (paramRingSize b) 64 && powerOfTwoIn 8 4096 (paramRingSize b)
    && decide (1 ≤ paramLevel b) && decide (paramLevel b ≤ 7)
    && decide (1 ≤ paramRing b) && decide (paramRing b ≤ 3) && decide (paramPolicy b ≤ 1)
  else if op = opConfigureCq then
    ringPlaceOk (paramRingBase b) (paramRingSize b) 32 && powerOfTwoIn 16 4096 (paramRingSize b)
    && decide (1 ≤ paramThreshold b) && decide (paramThreshold b ≤ 255) && decide (paramAgeLimit b ≤ 65535)
  else if op = opLoadAperture then loadApertureOk b
  else if op = opReadStatistics then
    paramAddress b % 64 == 0 && decide (paramAddress b + 256 ≤ Config.addressLimit)
  else if op = opQueryQueue then
    paramAddress b % 64 == 0 && decide (paramAddress b + 64 ≤ Config.addressLimit)
  else true

/-- The work queue an admin record's target index names, for an index of 1 to 8. -/
def adminQueue (b : List Byte) : WqId := Fin.ofNat 8 (adminIndex b - 1)

/-- The completion ring a target index of 1 to 3 names. -/
def adminRingIndex (b : List Byte) : CqId := Fin.ofNat 4 (adminIndex b)

/-- The aperture entry a target index of 0 to 15 names. -/
def adminAperture (b : List Byte) : ApId := Fin.ofNat 16 (adminIndex b)

/-- The entry a LOAD APERTURE carries, valid (R85). -/
def loadedAperture (b : List Byte) : Aperture :=
  { valid := true, kind := apertureKind (paramKind b), exponent := paramExponent b, base := paramBase b,
    target := paramTarget b, read := bitOf (paramRights b) 0, write := bitOf (paramRights b) 1,
    queues := BitVec.ofNat 8 (paramQueues b) }

/-! ## The root block (R160, R176) -/

def rootAdminBase (b : List Byte) : Nat := field b 0 8
def rootAdminSize (b : List Byte) : Nat := field b 8 2
def rootCqBase (b : List Byte) : Nat := field b 16 8
def rootCqSize (b : List Byte) : Nat := field b 24 2
def rootThreshold (b : List Byte) : Nat := field b 26 2
def rootAgeLimit (b : List Byte) : Nat := field b 28 4

/-- The seven checks of R160. Any failure has the same effect, so their order does not show. -/
def rootBlockOk (b : List Byte) : Bool :=
  allZero (slice b 10 6) && allZero (slice b 32 32)
  && powerOfTwoIn 8 256 (rootAdminSize b)
  && ringPlaceOk (rootAdminBase b) (rootAdminSize b) 64
  && powerOfTwoIn 16 4096 (rootCqSize b)
  && ringPlaceOk (rootCqBase b) (rootCqSize b) 32
  && decide (1 ≤ rootThreshold b) && decide (rootThreshold b ≤ 255)
  && decide (rootAgeLimit b ≤ 65535)

/-! ## The completion entry (R175) -/

/-- The status codes of R175. -/
def statusCode : Status → Nat
  | .ok => 0x00
  | .mismatch => 0x01
  | .aborted => 0x02
  | .stopped => 0x03
  | .malformed => 0x10
  | .align => 0x11
  | .aperture => 0x12
  | .memError => 0x13
  | .memTimeout => 0x14
  | .fetchError => 0x15
  | .busy => 0x20
  | .invalid => 0x21
  | .notReady => 0x22
  | .unknown => 0x23
  | .drained => 0x30

/-- The fault statuses, codes 0x10 to 0x14 (R175). -/
def Status.isFault : Status → Bool
  | .malformed | .align | .aperture | .memError | .memTimeout => true
  | _ => false

/-- Bit 4 of a sub-status: the operand (R175). -/
def operandBit : Operand → Nat
  | .source => 0
  | .dest => 16

/-- The lookup result in bits 0 to 3 (R175). -/
def lookupCode : LookupFault → Nat
  | .none => 1
  | .denied => 2
  | .queue => 3
  | .rights => 4

/-- The sub-status codes of R175. -/
def subCode : Sub → Nat
  | .none => 0
  | .immediate => 1
  | .deferred => 2
  | .unchanged => 3
  | .stacked => 4
  | .active => 5
  | .outcomeOk => 6
  | .outcomeMismatch => 7
  | .outcomeFault => 8
  | .skipped => 9
  | .skipIgnored => 10
  | .badType => 1
  | .badReserved => 2
  | .badWidth => 3
  | .badLength => 4
  | .badFlags => 5
  | .badRange => 6
  | .alignSource => 1
  | .alignDest => 2
  | .alignLength => 3
  | .alignStride => 4
  | .lookup f o => lookupCode f + operandBit o
  | .memory o => operandBit o
  | .fetchError => 1
  | .fetchTimeout => 2
  | .invalidReserved => 1
  | .invalidIndex => 2
  | .invalidParameter => 3
  | .byDrain => 1
  | .byAbort => 2
  | .byStop => 3

/-- The 32 bytes of a completion entry with the phase in force at its issue (R112, R175). -/
def entryBytes (e : Entry) (phase : Bool) : List Byte :=
  leBytes 1 (statusCode e.status) ++ leBytes 1 (subCode e.sub) ++ leBytes 1 e.queue ++ leBytes 1 phase.toNat
  ++ leBytes 2 e.tag ++ leBytes 2 e.head ++ leBytes 4 e.progress ++ zeros 4 ++ leBytes 8 e.detail ++ zeros 8

/-! ## The statistics block and the queue report (R177) -/

def queueStateCode : QueueState → Nat
  | .disabled => 0
  | .idle => 1
  | .running => 2
  | .suspended => 3
  | .halted => 4

def policyCode : FaultPolicy → Nat
  | .halt => 0
  | .skip => 1

def haltCauseCode : HaltCause → Nat
  | .none => 0
  | .record => 1
  | .fetch => 2

def slotCode : Slot → Nat
  | .empty => 0
  | .filling false => 1
  | .filling true => 2
  | .full _ => 3

/-- The completion ring of a queue as a number: 0 while unconfigured (R177). -/
def ringNumber : Option CqId → Nat
  | none => 0
  | some c => c.val

/-- One queue's five counters in the statistics block (R177). -/
def queueCounterBytes (q : Queue) : List Byte :=
  leBytes 4 q.endedOk ++ leBytes 4 q.endedFault ++ leBytes 4 q.endedAborted ++ leBytes 4 q.timesSuspended
  ++ leBytes 4 q.discarded

/-- One ring's two counters in the statistics block (R177). -/
def ringCounterBytes (r : Ring) : List Byte := leBytes 4 r.written ++ leBytes 4 r.discarded

/-- The work queues, completion rings, tags and aperture entries in ascending number. -/
def allQueues : List WqId := [0, 1, 2, 3, 4, 5, 6, 7]
def allRings : List CqId := [0, 1, 2, 3]
def allTags : List TagId := List.finRange 32
def allApertures : List ApId := List.finRange 16

/-- The 256 bytes of the statistics block (R177). -/
def statisticsBlock (s : State) : List Byte :=
  allQueues.flatMap (fun q => queueCounterBytes s.queues[q])
  ++ allRings.flatMap (fun c => ringCounterBytes s.rings[c])
  ++ leBytes 4 s.counters.requestTimeouts ++ leBytes 4 s.counters.lateResponses ++ leBytes 4 s.counters.strayResponses
  ++ leBytes 4 s.counters.rejectedPosts ++ leBytes 4 s.counters.rejectedAcks ++ leBytes 4 s.counters.droppedAtStop
  ++ zeros 40

/-- The posted count (tail − head) mod size of a ring, 0 for one without size (R50, R129, R145). -/
def postedCount (size head tail : Nat) : Nat := if size = 0 then 0 else (tail + size - head) % size

/-- The posted count of a work queue (R50). -/
def Queue.posted (q : Queue) : Nat := postedCount q.ringSize q.head q.tail

/-- Where a queue's context is: 0 none, 1 active, 2 stacked, with its stack position and itself (R48, R177). -/
def contextPlace (s : State) (q : WqId) : Nat × Nat × Option Context :=
  match s.active with
  | some c => if c.queue = q then (1, 0, some c) else stackPlace
  | none => stackPlace
where
  /-- The stacked context of the queue; the top of the stack stands first and has the highest position. -/
  stackPlace : Nat × Nat × Option Context :=
    match s.stack.findIdx? (fun c => c.queue = q) with
    | some i => (2, s.stack.length - i, s.stack[i]?)
    | none => (0, 0, none)

/-- The 64 bytes of the queue report (R74, R177). -/
def queueReport (s : State) (q : WqId) : List Byte :=
  let d := s.queues[q]
  let p := contextPlace s q
  let row := match p.2.2 with | some c => c.row | none => 0
  let offset := match p.2.2 with | some c => c.offset | none => 0
  let done := match p.2.2 with | some c => c.done | none => 0
  leBytes 1 (wqNumber q) ++ leBytes 1 (queueStateCode d.state) ++ leBytes 1 d.level ++ leBytes 1 (ringNumber d.ring)
  ++ leBytes 1 (policyCode d.policy) ++ leBytes 1 (slotCode d.slot)
  ++ leBytes 1 (d.drain.toNat + 2 * d.hold.toNat) ++ leBytes 1 (haltCauseCode d.haltCause)
  ++ leBytes 2 d.ringSize ++ leBytes 2 d.head ++ leBytes 2 d.tail ++ leBytes 2 d.posted
  ++ leBytes 1 p.1 ++ leBytes 1 p.2.1 ++ zeros 2
  ++ leBytes 2 row ++ leBytes 2 offset ++ leBytes 4 done ++ zeros 36

end Sys2Proof.Machine
end

