-- ==== Sys2Proof/Machine/Flags.lean ====
section
/-! DEFINITION. The register port's computed values: ID, STATUS, FLAGS, CONTROL and the notification line. -/

namespace Sys2Proof.Machine

/-- ID: part 0x0417, family member 1, revision 1 (R178). -/
def idWord : Reg := 0x04170101#32

def engineCode : EngineState → Nat
  | .stopped => 0
  | .starting => 1
  | .running => 2
  | .stopping => 3
  | .failed => 4

def causeCode : FailCause → Nat
  | .none => 0
  | .rootRead => 1
  | .rootInvalid => 2

/-- The admin-halted indication (R168). -/
def AdminState.isHalted : AdminState → Bool
  | .halted _ => true
  | _ => false

/-- The pending indication of a ring: its notify pending, 0 while UNCONFIGURED (R124). -/
def Ring.pendingShown (r : Ring) : Bool := r.state != .unconfigured && r.notifyPending

/-- The broken indication of a ring (R124). -/
def Ring.brokenShown (r : Ring) : Bool := r.state == .broken

/-- STATUS (R168, R178). -/
def statusWord (s : State) : Reg :=
  BitVec.ofNat 32
    (engineCode s.engine + 16 * causeCode s.cause + 64 * (s.engine == .failed).toNat + 128 * s.admin.isHalted.toNat
      + 256 * (s.rings[(0 : CqId)].pendingShown.toNat + 2 * s.rings[(1 : CqId)].pendingShown.toNat
               + 4 * s.rings[(2 : CqId)].pendingShown.toNat + 8 * s.rings[(3 : CqId)].pendingShown.toNat)
      + 4096 * (s.rings[(0 : CqId)].brokenShown.toNat + 2 * s.rings[(1 : CqId)].brokenShown.toNat
               + 4 * s.rings[(2 : CqId)].brokenShown.toNat + 8 * s.rings[(3 : CqId)].brokenShown.toNat))

/-- FLAGS as read: bits 31 to 4 are 0 (R178, R179). -/
def flagsWord (f : StickyFlags) : Reg :=
  BitVec.ofNat 32 (f.postReject.toNat + 2 * f.ackReject.toNat + 4 * f.stray.toNat + 8 * f.badAccess.toNat)

/-- CONTROL as read: SOFT_RESET and bits 31 to 3 are 0 (R155, R179). -/
def controlWord (s : State) : Reg := BitVec.ofNat 32 (s.run.toNat + 2 * s.notifyEnable.toNat)

/-- The notification line NOTIFY_N is asserted (driven low); while RESET_N is low it is released (R123, R180). -/
def notifyAsserted (s : State) : Bool :=
  s.heldEvents == 0 && s.notifyEnable
  && (allRings.any (fun c => s.rings[c].notifyPending) || allRings.any (fun c => s.rings[c].state == .broken)
      || s.admin.isHalted || s.engine == .failed)

/-- A write of FLAGS clears each flag whose position is written 1 (R169). -/
def clearFlags (v : Reg) (f : StickyFlags) : StickyFlags :=
  { postReject := f.postReject && !v.getLsbD 0, ackReject := f.ackReject && !v.getLsbD 1,
    stray := f.stray && !v.getLsbD 2, badAccess := f.badAccess && !v.getLsbD 3 }

/-- What a well-formed 32-bit read returns (R170, R178). -/
def registerValue (s : State) (offset : Nat) : Reg :=
  if offset = 0x00 then idWord
  else if offset = 0x04 then controlWord s
  else if offset = 0x08 then statusWord s
  else if offset = 0x0C then flagsWord s.flags
  else if offset = 0x10 then s.rootLo
  else if offset = 0x14 then s.rootHi
  else 0

/-- `k` more events of a counter that stops at its limit (00 section 6.3). -/
def bumpBy (n k : Nat) : Nat := min (n + k) Config.counterMax

/-- One more event of such a counter. -/
def bump (n : Nat) : Nat := bumpBy n 1

/-- Notification is evaluated for an entry written (R121): whether the ring's notify pending is set, given its unannounced count
after the entry. -/
def entryNotifies (threshold unannounced : Nat) (o : Occupied) : Bool :=
  decide (threshold ≤ unannounced) || (o.entry.status != .ok && o.entry.status != .mismatch) || o.notifyNow

end Sys2Proof.Machine
end

