-- ==== Sys2Proof/Machine/Ops.lean ====
section
/-! DEFINITION. The operations that several blocks share: reading and replacing a queue, ring, tag or counter; the pending list
(chapter 6); emptying a staging slot (R59); placing an admin completion (R136). -/

namespace Sys2Proof.Machine

/-! ## Parts of the state -/

def State.queue (s : State) (q : WqId) : Queue := s.queues[q]
def State.ring (s : State) (c : CqId) : Ring := s.rings[c]
def State.tag (s : State) (t : TagId) : TagState := s.tags[t]
def State.aperture (s : State) (a : ApId) : Aperture := s.apertures[a]

def State.setQueue (s : State) (q : WqId) (d : Queue) : State := { s with queues := s.queues.set q d }
def State.setRing (s : State) (c : CqId) (r : Ring) : State := { s with rings := s.rings.set c r }
def State.setTag (s : State) (t : TagId) (g : TagState) : State := { s with tags := s.tags.set t g }
def State.setAperture (s : State) (a : ApId) (e : Aperture) : State := { s with apertures := s.apertures.set a e }

/-! ## Held in reset -/

/-- A register access or response that arrives while RESET_N is low is not taken; otherwise it has its effect `f` (R180). -/
def unlessHeld (f : State → State) (s : State) : State :=
  match s.heldEvents with
  | 0 => f s
  | n + 1 => { s with heldEvents := n }

/-! ## Rejections and misuse -/

/-- A rejected POST, whichever block rejects it (R52). -/
def rejectPost (s : State) : State :=
  { s with counters := { s.counters with rejectedPosts := bump s.counters.rejectedPosts },
           flags := { s.flags with postReject := true } }

/-- A rejected CQ_ACK, whichever block rejects it (R116). -/
def rejectAck (s : State) : State :=
  { s with counters := { s.counters with rejectedAcks := bump s.counters.rejectedAcks },
           flags := { s.flags with ackReject := true } }

/-! ## The pending list (R108 to R110) -/

/-- The free entries: those of the sixteen neither reserved nor occupied. -/
def freeEntries (s : State) : Nat := Config.pendingEntries - (s.reserved.length + s.occupied.length)

/-- Whether a free entry exists. -/
def hasFree (s : State) : Bool := decide (0 < freeEntries s)

/-- A holder reserves a free entry, bound for a ring (R109). -/
def reserve (h : Holder) (c : CqId) (s : State) : State := { s with reserved := s.reserved ++ [⟨h, c⟩] }

/-- The list without the first reservation of a holder. -/
def removeHolder (h : Holder) : List Reservation → List Reservation
  | [] => []
  | r :: rs => if r.holder = h then rs else r :: removeHolder h rs

/-- A holder's reservation becomes free (R109). -/
def release (h : Holder) (s : State) : State := { s with reserved := removeHolder h s.reserved }

/-- A holder places an entry for a ring with its reservation (R110): under SUPPRESS, or for a BROKEN ring, the entry becomes
free, in the second case counted as discarded; otherwise it becomes occupied, last in the order. -/
def place (h : Holder) (c : CqId) (e : Entry) (suppressed notifyNow : Bool) (s : State) : State :=
  let s := release h s
  if suppressed then s
  else if (s.ring c).state = .broken then
    s.setRing c { s.ring c with discarded := bump (s.ring c).discarded }
  else { s with occupied := s.occupied ++ [⟨c, e, notifyNow, false⟩] }

/-! ## Staging slots and the fetch in flight (R59, R63) -/

/-- The fetch in flight is for this queue and its request has not been issued. -/
def fetchWaitsFor (s : State) (q : WqId) : Bool :=
  match s.fetch with
  | some f => decide (f.queue = q) && !f.issued
  | none => false

/-- The staging slot of a queue is emptied (R59). A FILLING slot whose request waits for a tag is withdrawn at once, with its
reservation; one whose request is out takes the cancelled marker (R63). -/
def emptySlot (q : WqId) (s : State) : State :=
  let d := s.queue q
  match d.slot with
  | .empty => s
  | .full _ => s.setQueue q { d with slot := .empty }
  | .filling true => s
  | .filling false =>
    if fetchWaitsFor s q then
      { (release .fetch s).setQueue q { d with slot := .empty } with fetch := none }
    else s.setQueue q { d with slot := .filling true }

/-! ## Admin completions (R136) -/

/-- The completion of a record is placed on CQ0 with the reservation of its take-up, and the admin unit becomes IDLE (R136). -/
def completeAdmin (record : List Byte) (status : Status) (sub : Sub) (detail : Nat) (s : State) : State :=
  { place .adminRecord 0
      { status := status, sub := sub, queue := 0, tag := adminTag record, head := s.adminRing.head, progress := 0,
        detail := detail } false false s with admin := .idle }

/-- The sub-status by which an ABORT QUEUE reports an active context's end (R145). -/
def abortReport : Status → Sub
  | .aborted => .active
  | .ok => .outcomeOk
  | .mismatch => .outcomeMismatch
  | _ => .outcomeFault

/-- The admin unit finishes an abort (R145): the slot is emptied, the posted records are discarded and counted, the queue is
DISABLED, and the completion is placed with the number discarded. -/
def finishAbort (record : List Byte) (q : WqId) (sub : Sub) (s : State) : State :=
  let s := emptySlot q s
  let d := s.queue q
  completeAdmin record .ok sub d.posted
    (s.setQueue q { d with head := d.tail, discarded := bumpBy d.discarded d.posted, state := .disabled,
                           haltCause := .none })

end Sys2Proof.Machine
end

