-- ==== Sys2Proof/Machine/Claims.lean ====
section
/-! DEFINITION. The conditions of the claims that the admin unit (R131), the fetch unit (R60, R61) and a waiting DISABLE QUEUE (R143)
make on the pending list beside the scheduler's (R109). -/

namespace Sys2Proof.Machine

/-- The posted count of the admin ring (R129). -/
def AdminRing.posted (r : AdminRing) : Nat := postedCount r.size r.head r.tail

/-- The conditions of a take-up (R131). -/
def canTakeUp (s : State) : Bool :=
  s.engine == .running && s.admin == .idle && decide (1 ≤ s.adminRing.posted) && hasFree s

/-- A fetch candidate (R60). -/
def fetchCandidate (s : State) (q : WqId) : Bool :=
  let d := s.queue q
  s.engine == .running
  && (d.state == .idle || d.state == .running || d.state == .suspended)
  && !d.drain && !d.abortPending && !d.hold && d.slot == .empty && decide (1 ≤ d.posted)

/-- The better of the candidate chosen so far and the next one: the higher level, at one level the lower number (R61). -/
def betterCandidate (s : State) (best : Option WqId) (q : WqId) : Option WqId :=
  if fetchCandidate s q then
    match best with
    | none => some q
    | some b => if (s.queue b).level < (s.queue q).level then some q else some b
  else best

/-- The candidate the fetch unit chooses (R61). -/
def chosenCandidate (s : State) : Option WqId := allQueues.foldl (betterCandidate s) none

/-- The queue the fetch unit would issue a fetch for: it is IDLE, an entry is free, and a candidate exists (R61). -/
def fetchClaim (s : State) : Option WqId := if s.fetch.isNone && hasFree s then chosenCandidate s else none

/-- A DISABLE QUEUE of the queue, applied now, needs a free entry: the queue is RUNNING or SUSPENDED, no drain is requested, and the
engine is not STOPPING (R142, R143). -/
def drainNeedsEntry (s : State) (q : WqId) : Bool :=
  let d := s.queue q
  (d.state == .running || d.state == .suspended) && !d.drain && s.engine != .stopping

/-- A DISABLE QUEUE waits for a free entry (R143). -/
def awaitsEntry (s : State) : Bool :=
  match s.admin with
  | .executing _ (.waitEntry q) => drainNeedsEntry s q
  | _ => false

/-- A DISABLE QUEUE that waited needs no entry any more: its queue has left RUNNING and SUSPENDED, or the engine has entered STOPPING
(R143). -/
def lookDue (s : State) : Bool :=
  match s.admin with
  | .executing _ (.waitEntry q) => !drainNeedsEntry s q
  | _ => false

/-- A holder other than the scheduler has its condition met (R109). -/
def rivalClaims (s : State) : Bool := canTakeUp s || (fetchClaim s).isSome || awaitsEntry s

end Sys2Proof.Machine
end

