-- ==== Sys2Proof/Machine/Apertures.lean ====
section
/-! DEFINITION. The aperture table: lookup (R76 to R80) and updates (R83, R85). -/

namespace Sys2Proof.Machine

/-- A queue is in an entry's queue set (R75, R174). -/
def Aperture.names (a : Aperture) (q : WqId) : Bool := a.queues.getLsbD q.val

/-- The whole range lies inside the entry's aperture, and the entry is valid (R76). -/
def Aperture.contains (a : Aperture) (address length : Nat) : Bool :=
  a.valid && decide (a.base ≤ address) && decide (address + length ≤ a.base + 2 ^ a.exponent)

/-- A DENY entry covers the range for the queue (R76). -/
def Aperture.denies (a : Aperture) (q : WqId) (address length : Nat) : Bool :=
  a.kind == .deny && a.contains address length && a.names q

/-- A DIRECT or TRANSLATE entry covers the range, whatever the queue (R76). -/
def Aperture.serves (a : Aperture) (address length : Nat) : Bool :=
  a.kind != .deny && a.contains address length

/-- The right an operand needs is present (R77). -/
def Aperture.grants (a : Aperture) (kind : ReqKind) : Bool :=
  match kind with
  | .read => a.read
  | .write => a.write

/-- The system address of a granted range (R79). -/
def Aperture.systemAddress (a : Aperture) (address : Nat) : Nat :=
  match a.kind with
  | .translate => a.target + (address - a.base)
  | _ => address

/-- One lookup (R78): a fault, or the system address of the range. -/
def lookup (s : State) (q : WqId) (kind : ReqKind) (address length : Nat) : Except LookupFault Nat :=
  if allApertures.any (fun i => (s.aperture i).denies q address length) then .error .denied
  else
    match allApertures.find? (fun i => (s.aperture i).serves address length) with
    | none => .error .none
    | some i =>
      let a := s.aperture i
      if !a.names q then .error .queue
      else if !a.grants kind then .error .rights
      else .ok (a.systemAddress address)

/-- An update is applied to the table (R85). A clear leaves the other fields of the entry as they were. -/
def applyUpdate (u : ApertureUpdate) (s : State) : State :=
  match u.entry with
  | some e => s.setAperture u.index e
  | none => s.setAperture u.index { s.aperture u.index with valid := false }

/-- The waiting update, if there is one, is applied at the boundary (R83). -/
def applyWaiting (s : State) : State :=
  match s.waitingUpdate with
  | some u => { applyUpdate u s with waitingUpdate := none }
  | none => s

end Sys2Proof.Machine
end

