-- ==== Sys2Proof/Machine/Mover.lean ====
section
/-! DEFINITION. The mover: start checks (R5 to R8), segments and their requests (R10 to R14), and the data of each record type
(R17 to R20). -/

namespace Sys2Proof.Machine

/-! ## Start checks (R2, R5 to R8) -/

/-- What the start checks find (R5, R8). -/
inductive StartVerdict where
  /-- A check failed: the record ends with this status and sub-status. -/
  | fails (status : Status) (sub : Sub)
  /-- A MARK that passes: it ends OK at once. -/
  | mark
  /-- The record goes on to its first segment. -/
  | goes
  deriving DecidableEq, Repr

/-- Check 2: the fields R2's table wants zero are zero. A stride of a record of 0 or 1 rows, and the pattern bytes of a FILL, are
not looked at. -/
def reservedFieldsOk (r : WorkRecord) : Bool :=
  allZero r.reserved && r.flags / 8 == 0
  && (if r.type = typeCopy ∨ r.type = typeCompare then allZero r.pattern
      else if r.type = typeFill then r.source == 0 && r.sourceStride == 0
      else r.width == 0 && r.source == 0 && r.sourceStride == 0 && r.dest == 0 && r.destStride == 0
           && r.rowLength == 0 && r.rows == 0 && allZero r.pattern)

/-- Check 5: SWAP on COPY only (R3, R4). -/
def flagsAllowed (r : WorkRecord) : Bool := r.type == typeCopy || !r.swap

/-- Check 6 for one operand (R6): its first and last row lie within 0 to 2^48 − 1. -/
def operandInRange (r : WorkRecord) (address : Nat) (stride : Int) : Bool :=
  let first := rowStart address stride 0
  let last := rowStart address stride (r.rows - 1)
  let inside (start : Int) : Bool := decide (0 ≤ start) && decide (start + r.rowLength ≤ Config.addressLimit)
  inside first && inside last

/-- Check 6 for every operand the type uses. -/
def rangeOk (r : WorkRecord) : Bool :=
  (!r.usesSource || operandInRange r r.source r.sourceStride) && operandInRange r r.dest r.destStride

/-- Check 7 (R7): the first alignment failure, if any. -/
def alignFailure (r : WorkRecord) : Option Sub :=
  if r.usesSource && r.source % r.width != 0 then some .alignSource
  else if r.dest % r.width != 0 then some .alignDest
  else if r.rowLength % r.width != 0 then some .alignLength
  else if decide (1 < r.rows) && ((r.usesSource && r.sourceStride % r.width != 0) || r.destStride % r.width != 0) then
    some .alignStride
  else none

/-- The start checks in their order (R5); a MARK is held to checks 1, 2 and 5 (R8). -/
def startCheck (r : WorkRecord) : StartVerdict :=
  if ¬ (r.type = typeCopy ∨ r.type = typeFill ∨ r.type = typeCompare ∨ r.type = typeMark) then .fails .malformed .badType
  else if !reservedFieldsOk r then .fails .malformed .badReserved
  else if r.type = typeMark then
    if flagsAllowed r then .mark else .fails .malformed .badFlags
  else if ¬ (r.width = 1 ∨ r.width = 2 ∨ r.width = 4 ∨ r.width = 8) then .fails .malformed .badWidth
  else if r.rowLength = 0 ∨ r.rows = 0 then .fails .malformed .badLength
  else if !flagsAllowed r then .fails .malformed .badFlags
  else if !rangeOk r then .fails .malformed .badRange
  else
    match alignFailure r with
    | some sub => .fails .align sub
    | none => .goes

/-! ## Segments (R10 to R13) -/

/-- The engine address where an operand's part of the next segment begins (R10). -/
def segmentStart (address : Nat) (stride : Int) (c : Context) : Nat :=
  (rowStart address stride c.row + c.offset).toNat

/-- The bytes from an engine address to its next 1 KiB boundary (R10). -/
def toBoundary (address : Nat) : Nat := 1024 - address % 1024

/-- The length of the next segment of a context (R10). -/
def segmentLength (c : Context) : Nat :=
  let r := c.record
  let rest := min (min 256 (r.rowLength - c.offset)) (toBoundary (segmentStart r.dest r.destStride c))
  if r.usesSource then min rest (toBoundary (segmentStart r.source r.sourceStride c)) else rest

/-- A range divided at the 64-byte boundaries of its system address (R12): offset in the range and length of each part. -/
def splitAt64 (system length : Nat) : List (Nat × Nat) :=
  if length = 0 then []
  else
    (List.range ((system + length - 1) / 64 - system / 64 + 1)).map fun k =>
      let start := max system ((system / 64 + k) * 64)
      let stop := min (system + length) ((system / 64 + k + 1) * 64)
      (start - system, stop - start)

/-- The requests of one operand range, in ascending address, each waiting for a tag (R12, R13). `data` is what writes carry. -/
def rangeRequests (o : Operand) (kind : ReqKind) (r : OperandRange) (data : List Byte) : List SegRequest :=
  (splitAt64 r.system r.length).map fun p =>
    { operand := o, kind := kind, engine := r.engine + p.1, system := r.system + p.1, length := p.2, progress := .waiting,
      data := slice data p.1 p.2 }

/-- The bytes of each element in reverse order (R3). -/
def swapElements (width : Nat) (data : List Byte) : List Byte :=
  (List.range data.length).map fun i => data.getD (i / width * width + (width - 1 - i % width)) 0

/-- The pattern repeated over the bytes from `offset` of a row on (R19). -/
def patternBytes (r : WorkRecord) (offset length : Nat) : List Byte :=
  (List.range length).map fun i => r.pattern.getD ((offset + i) % r.width) 0

/-- The operand ranges of the next segment, looked up source first (R11); or the fault, its operand and engine address (R80). -/
def lookupOperands (s : State) (c : Context) :
    Except (LookupFault × Operand × Nat) (Option OperandRange × OperandRange) :=
  let r := c.record
  let n := segmentLength c
  let src := segmentStart r.source r.sourceStride c
  let dst := segmentStart r.dest r.destStride c
  let destKind : ReqKind := if r.type = typeCompare then .read else .write
  let destRange (source : Option OperandRange) : Except (LookupFault × Operand × Nat) (Option OperandRange × OperandRange) :=
    match lookup s c.queue destKind dst n with
    | .error f => .error (f, .dest, dst)
    | .ok a => .ok (source, ⟨dst, a, n⟩)
  if r.usesSource then
    match lookup s c.queue .read src n with
    | .error f => .error (f, .source, src)
    | .ok a => destRange (some ⟨src, a, n⟩)
  else destRange none

/-- The segment of a context with granted ranges: a FILL begins in WRITING, a COPY or COMPARE in READING (R12, R14). -/
def newSegment (c : Context) (source : Option OperandRange) (dest : OperandRange) : Segment :=
  let r := c.record
  let base : Segment :=
    { length := dest.length, source := source, dest := some dest, requests := [], readData := [], failure := none,
      phase := .reading }
  match source with
  | none =>
    { base with requests := rangeRequests .dest .write dest (patternBytes r c.offset dest.length), phase := .writing }
  | some src =>
    if r.type = typeCompare then
      { base with requests := rangeRequests .source .read src [] ++ rangeRequests .dest .read dest [] }
    else { base with requests := rangeRequests .source .read src [] }

/-- The data that the resolved reads of one operand have brought, in order (R13). -/
def readBytes (o : Operand) (requests : List SegRequest) : List Byte :=
  (requests.filter (fun q => q.operand == o && q.kind == .read)).flatMap (fun q => q.data)

/-- A COPY segment whose reads are done enters WRITING with the requests of its destination (R13, R14, R17). -/
def enterWriting (c : Context) (g : Segment) : Segment :=
  let read := readBytes .source g.requests
  let data := if c.record.swap then swapElements c.record.width read else read
  match g.dest with
  | some dest => { g with requests := rangeRequests .dest .write dest data, readData := read, phase := .writing }
  | none => g

/-- The offset in the segment of the first differing element of a COMPARE (R20). -/
def firstDifference (width : Nat) (a b : List Byte) : Option Nat :=
  ((List.range (a.length / width)).map (fun k => k * width)).find? fun off => slice a off width != slice b off width

/-- What a segment hands the scheduler at its boundary (R16). -/
inductive Outcome where
  | success (length : Nat)
  | mismatch (offset : Nat)
  | aperture (fault : LookupFault) (operand : Operand) (address : Nat)
  | memError (operand : Operand) (address : Nat)
  | memTimeout (operand : Operand) (address : Nat)
  deriving DecidableEq, Repr

/-- The outcome of a segment with a failure taken (R16, R22). -/
def failureOutcome (f : SegFailure) : Outcome :=
  if f.timeout then .memTimeout f.operand f.engine else .memError f.operand f.engine

/-- The outcome of a COMPARE segment whose reads have all brought data (R20). -/
def compareOutcome (c : Context) (g : Segment) : Outcome :=
  match firstDifference c.record.width (readBytes .source g.requests) (readBytes .dest g.requests) with
  | some off => .mismatch (c.done + off)
  | none => .success g.length

/-- What becomes of the segment in flight when one of its requests resolves: it goes on, or it reaches its boundary (R14, R16). -/
inductive SegmentStep where
  | continues (g : Segment)
  | boundary (o : Outcome)
  deriving DecidableEq, Repr

/-- A segment with a failure taken waits in SETTLING while requests are outstanding, and is then at its boundary (R14, R22). -/
def settle (f : SegFailure) (g : Segment) : SegmentStep :=
  if g.requests.any (fun q => q.progress == .issued) then
    .continues { g with failure := some f, phase := .settling }
  else .boundary (failureOutcome f)

/-- Request `k` of the segment is resolved, with the data a READ brought. -/
def resolveRequest (g : Segment) (k : Nat) (data : Option (List Byte)) : Segment :=
  { g with requests := g.requests.modify k fun q =>
      { q with progress := .resolved, data := match data with | some b => b | none => q.data } }

/-- The first failure taken from request `k` (R22). -/
def failureOf (g : Segment) (k : Nat) (timeout : Bool) : SegFailure :=
  match g.requests[k]? with
  | some q => ⟨timeout, q.operand, q.engine⟩
  | none => ⟨timeout, .dest, 0⟩

/-- All requests of the segment's phase are resolved. -/
def allResolved (g : Segment) : Bool := g.requests.all (fun q => q.progress == .resolved)

/-- How a request of a client resolves: by its response or by its timeout (R96 to R98). -/
inductive Resolution where
  | data (bytes : List Byte)
  | ack
  | error
  | timeout
  deriving DecidableEq, Repr

/-- The table of R14: the segment in flight takes the resolution of its request `k`. -/
def segmentTakes (c : Context) (g : Segment) (k : Nat) (r : Resolution) : SegmentStep :=
  match g.phase, g.failure with
  | .settling, some f => settle f (resolveRequest g k none)
  | _, _ =>
    match r with
    | .data b =>
      let g' := resolveRequest g k (some b)
      if !allResolved g' then .continues g'
      else if c.record.type = typeCompare then .boundary (compareOutcome c g')
      else .continues (enterWriting c g')
    | .ack =>
      let g' := resolveRequest g k none
      if !allResolved g' then .continues g' else .boundary (.success g.length)
    | .error => settle (failureOf g k false) (resolveRequest g k none)
    | .timeout => settle (failureOf g k true) (resolveRequest g k none)

/-- The position after a segment of this length has succeeded (R21). -/
def advance (c : Context) (length : Nat) : Context :=
  if c.offset + length = c.record.rowLength then
    { c with row := c.row + 1, offset := 0, done := c.done + length }
  else { c with offset := c.offset + length, done := c.done + length }

end Sys2Proof.Machine
end

