-- ==== Sys2Proof/Machine/Scheduler.lean ====
section
/-! DEFINITION. The scheduler: eligibility and selection (R28 to R31), start (R32), end (R33, R34), the boundary rule (R35 to
R37), resume (R39) and the removal of stacked contexts (R42, R46). -/

namespace Sys2Proof.Machine

/-! ## Selection (R28 to R30) -/

/-- Eligible (R28). -/
def eligible (s : State) (q : WqId) : Bool :=
  let d := s.queue q
  d.state == .idle && !d.drain && (match d.slot with | .full _ => true | _ => false)

/-- E: the highest level among the eligible queues, 0 without a free entry (R30). -/
def eligibleLevel (s : State) : Nat :=
  if hasFree s then (s.startOrder.filter (eligible s)).foldl (fun m q => max m (s.queue q).level) 0 else 0

/-- T: the level of the top of the context stack, 0 when it is empty (R30). -/
def topLevel (s : State) : Nat :=
  match s.stack with
  | c :: _ => c.level
  | [] => 0

/-- The eligible queue of a level nearest the front of the start order (R29, R30). -/
def nearest (s : State) (level : Nat) : Option WqId :=
  s.startOrder.find? fun q => eligible s q && (s.queue q).level == level

/-- What selection decides (R30). -/
inductive Choice where
  | start (q : WqId)
  | resume (c : Context) (rest : List Context)
  | idle
  deriving DecidableEq, Repr

/-- Selection's cases 1 to 4 (R30). Case 3 needs an empty stack, where T is 0, and so amounts to case 1. -/
def choose (s : State) : Choice :=
  let e := eligibleLevel s
  if topLevel s < e then
    match nearest s e with
    | some q => .start q
    | none => .idle
  else
    match s.stack with
    | c :: rest => .resume c rest
    | [] => .idle

/-! ## Ends (R33, R34) -/

/-- The row of R34's table that holds at an end. -/
inductive NextState where
  | byAbort | byStop | byDrain | halted | idle
  deriving DecidableEq, Repr

/-- The first row of R34's table whose condition holds. -/
def nextState (s : State) (d : Queue) (status : Status) (byAbort : Bool) : NextState :=
  if byAbort then .byAbort
  else if s.engine = .stopping then .byStop
  else if d.drain then .byDrain
  else if status.isFault && d.policy == .halt then .halted
  else .idle

/-- The queue file's part of an end (R33, R34, R56, R57, R65): its counter rises, its state is set, its flags are cleared. -/
def endQueue (d : Queue) (status : Status) (n : NextState) : Queue :=
  { d with
    state := match n with | .byAbort | .byStop | .byDrain => .disabled | .halted => .halted | .idle => .idle
    haltCause := match n with | .halted => .record | _ => d.haltCause
    drain := false, abortPending := false, hold := false
    endedOk := if status = .ok ∨ status = .mismatch then bump d.endedOk else d.endedOk
    endedFault := if status.isFault then bump d.endedFault else d.endedFault
    endedAborted := if status = .aborted then bump d.endedAborted else d.endedAborted }

/-- The sub-status of a DRAINED notice (R34). -/
def drainSub : NextState → Sub
  | .byAbort => .byAbort
  | .byStop => .byStop
  | _ => .byDrain

/-- The DRAINED notice is placed on CQ0 with the drain's reservation, when a drain was requested (R34, R143). -/
def placeNotice (q : WqId) (n : NextState) (s : State) : State :=
  place (.drain q) 0
    { status := .drained, sub := drainSub n, queue := wqNumber q, tag := 0, head := (s.queue q).head, progress := 0, detail := 0 }
    false false s

/-- A context that has left its place ends (R33, R34): its entry is handed to the completion unit with its reservation, the queue
file takes the status, a DRAINED notice follows, and a HALT empties the slot (R68). -/
def endContext (c : Context) (status : Status) (sub : Sub) (progress detail : Nat) (byAbort : Bool) (s : State) : State :=
  let d := s.queue c.queue
  let n := nextState s d status byAbort
  let entry : Entry :=
    { status := status, sub := sub, queue := wqNumber c.queue, tag := c.record.tag, head := (c.index + 1) % d.ringSize,
      progress := progress, detail := detail }
  let suppressed := c.record.suppress && (status == .ok || status == .mismatch)
  let s := place (.context c.queue) c.ring entry suppressed c.record.notifyNow s
  let s := s.setQueue c.queue (endQueue d status n)
  let s := if d.drain then placeNotice c.queue n s else s
  if n = .halted then emptySlot c.queue s else s

/-- The ABORT QUEUE record with which the admin unit waits for the scheduler's report on this queue, if it does (R144). -/
def awaitedReport (s : State) (q : WqId) : Option (List Byte) :=
  match s.admin with
  | .executing b (.waitReport q') => if q' = q then some b else none
  | _ => none

/-- The active context ends (R33 to R36); an ABORT QUEUE that waits for it is finished before any selection (R43, R145). -/
def endActive (status : Status) (sub : Sub) (progress detail : Nat) (s : State) : State :=
  match s.active with
  | none => s
  | some c =>
    let byAbort := (s.queue c.queue).abortPending
    let s := endContext c status sub progress detail byAbort { s with active := none, currentLevel := 0 }
    match awaitedReport s c.queue with
    | some b => finishAbort b c.queue (abortReport status) s
    | none => s

/-! ## Start, resume and the next segment (R32, R37, R39, R9) -/

/-- Steps 1 to 6 of a start (R32): reservation, context, head, state, start order, current level. -/
def makeActive (q : WqId) (s : State) : State :=
  let d := s.queue q
  match d.slot with
  | .full bytes =>
    let ring := d.ring.getD 0
    let c : Context :=
      { queue := q, level := d.level, record := workRecord bytes, index := d.head, row := 0, offset := 0, done := 0,
        ring := ring }
    { (reserve (.context q) ring s).setQueue q
        { d with head := (d.head + 1) % d.ringSize, slot := .empty, state := .running } with
      startOrder := s.startOrder.filter (fun p => p != q) ++ [q], active := some c, currentLevel := d.level }
  | _ => s

/-- The mover forms a segment of the active context and begins it; a lookup that faults ends the record at once (R9, R11, R80).
The flag says whether the record ended. -/
def beginSegment (s : State) : State × Bool :=
  match s.active with
  | none => (s, false)
  | some c =>
    match lookupOperands s c with
    | .ok (source, dest) => ({ s with segment := some (newSegment c source dest) }, false)
    | .error (f, o, a) => (endActive .aperture (.lookup f o) c.done a s, true)

/-- A record is started (R32): it ends in the same step when a start check fails or it is a MARK (R5, R8). The flag says whether it
ended. -/
def startRecord (q : WqId) (s : State) : State × Bool :=
  let s := makeActive q s
  match s.active with
  | none => (s, false)
  | some c =>
    match startCheck c.record with
    | .fails status sub => (endActive status sub 0 0 s, true)
    | .mark => (endActive .ok .none 0 0 s, true)
    | .goes => beginSegment s

/-- The top context is resumed (R39). -/
def resumeContext (c : Context) (rest : List Context) (s : State) : State × Bool :=
  beginSegment
    { s.setQueue c.queue { s.queue c.queue with state := .running } with
      stack := rest, active := some c, currentLevel := c.level }

/-- Selection, again after every record that ends in the same step (R30, R32, R36). Every turn empties a FULL slot or takes a
context off the stack, so `fuel` bounds the turns. -/
def selectLoop : Nat → State → State
  | 0, s => s
  | fuel + 1, s =>
    if s.engine = .running ∧ s.active = none then
      match choose s with
      | .start q =>
        let r := startRecord q s
        if r.2 then selectLoop fuel r.1 else r.1
      | .resume c rest =>
        let r := resumeContext c rest s
        if r.2 then selectLoop fuel r.1 else r.1
      | .idle => { s with currentLevel := 0 }
    else s

/-- Selection (R31): it runs while the engine is RUNNING and the mover has no active context. A deferred claim is thereby made. -/
def select (s : State) : State := selectLoop (9 + s.stack.length) { s with claimDeferred := false }

/-! ## Claims of a freed entry (R31, R109) -/

/-- The scheduler would start a record: the mover is idle and selection would reserve an entry. -/
def schedulerClaims (s : State) : Bool :=
  s.engine == .running && s.active.isNone && (match choose s with | .start _ => true | _ => false)

/-- An entry has become free. With another holder's condition met too, either claim may be taken first (R109): the free value
decides whether selection runs at once or may stand behind the other's claim (log 6). Else selection runs at once (R31). -/
def claimFreed (s : State) : State :=
  if schedulerClaims s && rivalClaims s then
    let t := { s with claimTurn := s.claimTurn + 1 }
    if Config.schedulerClaimsFirst s.claimTurn then select t else { t with claimDeferred := true }
  else select s

/-- The claims of a pending-list entry that has become free since the state `before` (R31, R109). -/
def selectOnFree (before s : State) : State := if freeEntries before < freeEntries s then claimFreed s else s

/-- A work queue has entered IDLE since the state `before`, an event for selection (R31). Where the step has also freed an entry, the
selection of that event is the claim of the freed entry, made at the step's end (R109). -/
def selectOnIdle (before s : State) : State := if freeEntries before < freeEntries s then s else select s

/-- After another holder's claim the scheduler's, if it was deferred, is taken up again: it is made, or stands behind a further
holder's (R109). -/
def settleClaim (before s : State) : State :=
  if before.claimDeferred then claimFreed { s with claimDeferred := false } else s

/-- After a start or a formed segment: selection when the record ended at once. -/
def selectAfter (r : State × Bool) : State := if r.2 then select r.1 else r.1

/-! ## The boundary rule (R35 to R37) -/

/-- The queue that preempts at a boundary, if any (R35 case 6, R37). -/
def preemptor (s : State) : Option WqId :=
  let e := eligibleLevel s
  if s.currentLevel < e then nearest s e else none

/-- The active context is pushed (R37). -/
def pushActive (c : Context) (s : State) : State :=
  let d := s.queue c.queue
  { s.setQueue c.queue { d with state := .suspended, timesSuspended := bump d.timesSuspended } with
    stack := c :: s.stack, active := none }

/-- The seven cases of R35 for the active context `c`, whose position stands before the segment. -/
def boundaryRule (c : Context) (o : Outcome) (s : State) : State :=
  match o with
  | .aperture f op a => select (endActive .aperture (.lookup f op) c.done a s)
  | .memError op a => select (endActive .memError (.memory op) c.done a s)
  | .memTimeout op a => select (endActive .memTimeout (.memory op) c.done a s)
  | .mismatch off => select (endActive .mismatch .none off off s)
  | .success n =>
    let c' := advance c n
    let s := { s with active := some c' }
    if c'.done = c.record.dataLength then select (endActive .ok .none c'.done 0 s)
    else if (s.queue c.queue).abortPending then select (endActive .aborted .none c'.done 0 s)
    else if s.engine = .stopping then endActive .stopped .none c'.done 0 s
    else
      match preemptor s with
      | some q => selectAfter (startRecord q (pushActive c' s))
      | none => selectAfter (beginSegment s)

/-- The LOAD or CLEAR APERTURE record with which the admin unit waits for its update, if an update waits (R149). -/
def awaitedUpdate (s : State) : Option (List Byte) :=
  match s.admin, s.waitingUpdate with
  | .executing b .waitUpdate, some _ => some b
  | _, _ => none

/-- A segment boundary (R16, R35): the waiting update is applied before any further segment is formed (R83), the boundary rule
decides, and the completion of an applied update follows (R149, log 9). -/
def segmentBoundary (o : Outcome) (s : State) : State :=
  match s.active with
  | none => { s with segment := none }
  | some c =>
    let t := boundaryRule c o { applyWaiting s with segment := none }
    match awaitedUpdate s with
    | some b => selectOnFree t (completeAdmin b .ok .none 0 t)
    | none => t

/-- Request `k` of the segment in flight resolves (R14). -/
def moverTakes (k : Nat) (r : Resolution) (s : State) : State :=
  match s.active, s.segment with
  | some c, some g =>
    match segmentTakes c g k r with
    | .continues g' => { s with segment := some g' }
    | .boundary o => segmentBoundary o s
  | _, _ => s

/-! ## Contexts that end on the stack (R42, R46) -/

/-- The stacked context of a queue (R27: at most one). -/
def stackedContext (s : State) (q : WqId) : Option Context := s.stack.find? fun c => c.queue == q

/-- A stacked context is removed and ends ABORTED (R42). -/
def abortStacked (c : Context) (s : State) : State :=
  endContext c .aborted .none c.done 0 true { s with stack := s.stack.eraseP fun p => p.queue == c.queue }

/-- Every stacked context ends STOPPED, top first (R46). -/
def endStackStopped : List Context → State → State
  | [], s => { s with stack := [] }
  | c :: rest, s => endStackStopped rest (endContext c .stopped .none c.done 0 false { s with stack := rest })

end Sys2Proof.Machine
end

