-- ==== Sys2Proof/Machine/Port.lean ====
section
/-! DEFINITION. The memory port's grants: who asks for a tag and with which request (R92), whether it is granted (R93, R94), and
the issue of the request (R95). Asks are not stored: a client's ask stands exactly while its own state waits for a tag (log 8). -/

namespace Sys2Proof.Machine

/-- The four clients (R92). -/
inductive Client where
  | completion | admin | fetch | mover
  deriving DecidableEq, Repr

/-- A request that a client asks a tag for (R89). -/
structure Ask where
  owner : Owner
  kind : ReqKind
  address : Nat
  length : Nat
  data : List Byte
  deriving DecidableEq, Repr

/-! ## The completion unit's ask (R111, R112) -/

/-- A ring has room (R114). -/
def Ring.hasRoom (r : Ring) : Bool := (r.tail + 1) % r.size != r.head

/-- A ring is ready but for having an occupied entry: ACTIVE, with room, no write in flight (R111). -/
def ringOpen (s : State) (c : CqId) : Bool :=
  (s.ring c).state == .active && (s.ring c).hasRoom && !s.occupied.any (fun o => decide (o.ring = c) && o.inFlight)

/-- The oldest occupied entry whose ring is ready (R111). -/
def oldestReady (s : State) : Option Occupied := s.occupied.find? fun o => ringOpen s o.ring

/-- The completion unit's ask; it is withdrawn when the stop grace has expired (R111, R125). -/
def completionAsk (s : State) : Option Ask :=
  if s.graceTimer = .expired then none
  else
    match oldestReady s with
    | none => none
    | some o =>
      let r := s.ring o.ring
      some ⟨.completion o.ring, .write, r.base + 32 * r.tail, 32, entryBytes o.entry r.phase⟩

/-- The first occupied entry bound for a ring is in flight from here on. -/
def markInFlight (c : CqId) : List Occupied → List Occupied
  | [] => []
  | o :: os => if o.ring = c then { o with inFlight := true } :: os else o :: markInFlight c os

/-! ## The admin unit's ask (R131, R151, R152, R158) -/

/-- The first waiting write of a block or report and its place. -/
def firstWaitingWrite : Nat → List AdminWrite → Option (Nat × AdminWrite)
  | _, [] => none
  | k, w :: ws => if w.progress = .waiting then some (k, w) else firstWaitingWrite (k + 1) ws

/-- The admin unit's ask: the root read for engine control, an admin record's read, or the next write of a block or report. After
a failed write nothing more is asked for (R151). -/
def adminAsk (s : State) : Option Ask :=
  if s.rootRead = .waiting then some ⟨.rootRead, .read, s.rootInUse.toNat, 64, []⟩
  else
    match s.admin with
    | .fetching i false => some ⟨.adminRecord, .read, s.adminRing.base + 64 * i, 64, []⟩
    | .executing _ (.writing ws none) =>
      match firstWaitingWrite 0 ws with
      | some (k, w) => some ⟨.adminWrite k, .write, w.address, w.data.length, w.data⟩
      | none => none
    | _ => none

/-! ## The fetch unit's and the mover's asks (R61, R13) -/

/-- The fetch unit's ask: 64 bytes at ring base + 64 × index (R61). -/
def fetchAsk (s : State) : Option Ask :=
  match s.fetch with
  | some f =>
    if f.issued then none else some ⟨.fetch, .read, (s.queue f.queue).ringBase + 64 * f.index, 64, []⟩
  | none => none

/-- The first waiting request of a segment and its place. -/
def firstWaiting : Nat → List SegRequest → Option (Nat × SegRequest)
  | _, [] => none
  | k, q :: qs => if q.progress = .waiting then some (k, q) else firstWaiting (k + 1) qs

/-- The mover's ask: the next request of the segment's phase; none in SETTLING (R13, R14). -/
def moverAsk (s : State) : Option Ask :=
  match s.segment with
  | some g =>
    if g.phase = .settling then none
    else
      match firstWaiting 0 g.requests with
      | some (k, q) => some ⟨.mover k, q.kind, q.system, q.length, match q.kind with | .write => q.data | .read => []⟩
      | none => none
  | none => none

/-! ## Grants (R93 to R95) -/

/-- The count of FREE tags (R91). -/
def freeTags (s : State) : Nat := (allTags.filter fun t => s.tag t == .free).length

/-- The FREE tag of lowest number (R94). -/
def lowestFree (s : State) : Option TagId := allTags.find? fun t => s.tag t == .free

/-- The first waiting client in the fixed order whose grant condition holds, and its ask (R93, R94). DESIGN CHOICE (log 23): R94 gives
its order for a tag that becomes FREE; for the asks that several clients make within one step while tags are FREE, which R13, R92
and R93 grant each at once, the spec states no order, and the model takes R94's. -/
def nextGrant (s : State) : Option Ask :=
  if freeTags s = 0 then none
  else
    match completionAsk s with
    | some a => some a
    | none =>
      match adminAsk s with
      | some a => some a
      | none =>
        match fetchAsk s with
        | some a => some a
        | none => if Config.moverNeeds ≤ freeTags s then moverAsk s else none

/-- The owner learns that its request is out (R95). -/
def markIssued (o : Owner) (s : State) : State :=
  match o with
  | .completion c => { s with occupied := markInFlight c s.occupied }
  | .rootRead => { s with rootRead := .issued }
  | .adminRecord =>
    match s.admin with
    | .fetching i _ => { s with admin := .fetching i true }
    | _ => s
  | .adminWrite k =>
    match s.admin with
    | .executing record (.writing ws f) =>
      { s with admin := .executing record (.writing (ws.modify k fun w => { w with progress := .issued }) f) }
    | _ => s
  | .fetch =>
    match s.fetch with
    | some f => { s with fetch := some { f with issued := true } }
    | none => s
  | .mover k =>
    match s.segment with
    | some g =>
      { s with segment := some { g with requests := g.requests.modify k fun q => { q with progress := .issued } } }
    | none => s

/-- A grant and the issue of the request are one step (R95): the tag is IN_USE, its timer starts with the setting in force, and the
request leaves the port. -/
def issue (t : TagId) (a : Ask) (s : State) : State :=
  let s := s.setTag t (.inUse a.owner a.kind a.address a.length s.requestTimeout)
  markIssued a.owner { s with sent := s.sent ++ [⟨t, a.kind, a.address, a.length, a.data⟩] }

/-- One grant, when a client that asks may be served (R94). -/
def grantOne (s : State) : Option State :=
  match nextGrant s, lowestFree s with
  | some a, some t => some (issue t a s)
  | _, _ => none

/-- Grants, one after another, each client asking again as soon as its request is out (R13, R92, R95). -/
def grantLoop : Nat → State → State
  | 0, s => s
  | n + 1, s =>
    match grantOne s with
    | some s' => grantLoop n s'
    | none => s

/-- Every ask that can be served is served (R93, R94). There are 32 tags, so 32 turns serve all. DESIGN CHOICE (log 23): the asks of one
step are served together at its end, one grant after another, each to the first client in R94's order whose condition then holds. -/
def grantAll (s : State) : State := grantLoop 32 s

end Sys2Proof.Machine
end

