-- ==== Sys2Proof/Machine/EngineControl.lean ====
section
/-! DEFINITION. Engine control: start (R158 to R161), stop (R163 to R165), the two resets (R166, R167), and the CONTROL register
(R155, R156). -/

namespace Sys2Proof.Machine

/-! ## Start -/

/-- The address in ROOT_HI and ROOT_LO (R157). -/
def rootAddress (s : State) : BitVec 64 := s.rootHi ++ s.rootLo

/-- The root address is aligned to 64 and below 2^48 (R158 step 3). -/
def rootAddressOk (a : BitVec 64) : Bool := a.toNat % 64 == 0 && decide (a.toNat < Config.addressLimit)

/-- STARTING is entered (R158): the cause is cleared, the root address copied and checked, and the read handed to the admin unit. -/
def enterStarting (s : State) : State :=
  let a := rootAddress s
  if rootAddressOk a then { s with engine := .starting, cause := .none, rootInUse := a, rootRead := .waiting }
  else { s with engine := .failed, cause := .rootInvalid, rootInUse := a }

/-- A root block that passes its checks is taken into use and the engine enters RUNNING (R161). The
admin unit, IDLE throughout STARTING (R128), stays so. -/
def enterRunning (b : List Byte) (s : State) : State :=
  let r := s.ring 0
  { s.setRing 0
      { r with state := .active, base := rootCqBase b, size := rootCqSize b, head := 0, tail := 0, phase := true,
               threshold := rootThreshold b, ageLimit := rootAgeLimit b, notifyPending := false, unannounced := 0,
               ageTimer := none } with
    engine := .running, adminRing := ⟨rootAdminBase b, rootAdminSize b, 0, 0⟩ }

/-- The root read that is out resolves (R159, R160). -/
def rootResolved (r : Resolution) (s : State) : State :=
  if s.rootRead = .issued then
    let s := { s with rootRead := .none }
    match r with
    | .data b =>
      if s.run then
        if rootBlockOk b then select (enterRunning b s) else { s with engine := .failed, cause := .rootInvalid }
      else { s with engine := .stopped, cause := .none }
    | _ =>
      if s.run then { s with engine := .failed, cause := .rootRead }
      else { s with engine := .stopped, cause := .rootRead }
  else s

/-! ## Stop -/

/-- The queue file's part of the start of a stop for one queue: the slot is emptied, with any fetch in flight for it cancelled; an
IDLE or HALTED queue becomes DISABLED (R71). -/
def stopQueue (q : WqId) (s : State) : State :=
  let s := emptySlot q s
  let d := s.queue q
  if d.state = .idle ∨ d.state = .halted then s.setQueue q { d with state := .disabled, haltCause := .none } else s

/-- STOPPING is entered (R163): stacked contexts end STOPPED (R46), slots are emptied, the fetch is cancelled, IDLE and HALTED
queues become DISABLED (R71). -/
def enterStopping (s : State) : State :=
  let s := { s with engine := .stopping, claimDeferred := false }
  let s := endStackStopped s.stack s
  allQueues.foldl (fun s q => stopQueue q s) s

/-- The mover, the admin unit and the fetch unit are all idle (R164). -/
def unitsIdle (s : State) : Bool :=
  s.active.isNone && s.segment.isNone && s.fetch.isNone
  && (match s.admin with | .idle => true | .halted _ => true | _ => false)

/-- CQ0 when STOPPED is reached (R113, R165); its counts are kept (R127, R161). -/
def unconfiguredRing (r : Ring) : Ring := { Ring.reset with written := r.written, discarded := r.discarded }

/-- STOPPED is reached (R165), and STARTING entered at once when RUN is 1. -/
def reachStopped (s : State) : State :=
  let s := { s.setRing 0 (unconfiguredRing (s.ring 0)) with
             engine := .stopped, graceTimer := .stopped, adminRing := AdminRing.reset
             admin := match s.admin with | .halted _ => .idle | a => a }
  if s.run then enterStarting s else s

/-- The occupied entries that remain at grace expiry are dropped and counted (R125). -/
def dropOccupied (s : State) : State :=
  { s with occupied := [],
           counters := { s.counters with droppedAtStop := bumpBy s.counters.droppedAtStop s.occupied.length } }

/-- The stop goes on as far as it can (R125, R164, R165): the grace timer starts once the units are idle; STOPPED is reached when
the timer has started and no occupied entry remains, or, after its expiry, when no write is in flight. -/
def stopProgress (s : State) : State :=
  if s.engine = .stopping then
    let s := if s.graceTimer = .stopped ∧ unitsIdle s then { s with graceTimer := .running s.stopGrace } else s
    match s.graceTimer with
    | .stopped => s
    | .running _ => if s.occupied.isEmpty then reachStopped s else s
    | .expired => if s.occupied.any (fun o => o.inFlight) then s else reachStopped (dropOccupied s)
  else s

/-- The end of every step that may move a stop on or leave an ask to serve. -/
def finishStep (s : State) : State := grantAll (stopProgress s)

/-! ## Resets -/

/-- A tag at soft reset: IN_USE becomes STALE, the others stay (R104). -/
def staleTag : TagState → TagState
  | .inUse .. => .stale
  | t => t

/-- Power-on reset (R105, R167, R180): every block takes its power-on values; while RESET_N is low, so many accesses and responses
arrive as the free value says (log 13). The commands that wait and the model's counts of its free values stay (logs 6, 17). -/
def powerOnReset (s : State) : State :=
  { State.reset with pending := s.pending, claimTurn := s.claimTurn, resetTurn := s.resetTurn + 1
                     heldEvents := Config.eventsWhileLow s.resetTurn }

/-- All tags at soft reset. -/
def staleTags (tags : Vector TagState 32) : Vector TagState 32 := Vector.ofFn fun t : TagId => staleTag tags[t]

/-- Soft reset (R166): everything takes its power-on values but ROOT_LO and ROOT_HI, the tag pool (R104) and what is not the
engine's own: the waiting commands, RESET_N, the model's records of port traffic and its count of contests (logs 6, 11, 12, 17). -/
def softReset (s : State) : State :=
  { State.reset with pending := s.pending, rootLo := s.rootLo, rootHi := s.rootHi, tags := staleTags s.tags, sent := s.sent,
                     readData := s.readData, claimTurn := s.claimTurn, resetTurn := s.resetTurn,
                     heldEvents := s.heldEvents }

/-! ## CONTROL (R155, R156) -/

/-- A change of RUN to 1 (R156): STOPPED enters STARTING; elsewhere it is only recorded. -/
def runTo1 (s : State) : State :=
  match s.engine with
  | .stopped => grantAll (enterStarting s)
  | _ => s

/-- A change of RUN to 0 (R156). -/
def runTo0 (s : State) : State :=
  match s.engine with
  | .running => finishStep (enterStopping s)
  | .starting =>
    if s.rootRead = .waiting then { s with engine := .stopped, cause := .none, rootRead := .none } else s
  | .failed => { s with engine := .stopped }
  | _ => s

/-- A write of CONTROL (R155, R179). -/
def writeControl (v : Reg) (s : State) : State :=
  if v.getLsbD 2 then softReset s
  else
    let s' := { s with run := v.getLsbD 0, notifyEnable := v.getLsbD 1 }
    if s'.run = s.run then s' else if s'.run then runTo1 s' else runTo0 s'

end Sys2Proof.Machine
end

