-- ==== Sys2Proof/Machine/AdminUnit.lean ====
section
/-! DEFINITION. The admin unit: the checks of a record (R135), the effect of each admin command (chapter 7), and the execution of a
checked record, which nothing comes before (R132, R136). -/

namespace Sys2Proof.Machine

/-! ## The state check (R135 check 5) -/

/-- Whether a CONFIGURE CQ for a ring is BUSY (R147). -/
def ringBusy (s : State) (c : CqId) : Bool :=
  allQueues.any (fun q => (s.queue q).ring == some c && (s.queue q).state != .disabled)
  || s.reserved.any (fun r => r.ring == c) || s.occupied.any (fun o => o.ring == c)

/-- The completion ring a queue is bound to is ACTIVE (R141). -/
def boundRingActive (s : State) (d : Queue) : Bool :=
  match d.ring with
  | some c => (s.ring c).state == .active
  | none => false

/-- ENABLE QUEUE's table (R141): the status that refuses it, if any. -/
def enableRefusal (s : State) (d : Queue) : Option Status :=
  if d.ringSize = 0 then some .notReady
  else if d.state = .halted ∨ d.drain then some .busy
  else if d.state ≠ .disabled then none
  else if !boundRingActive s d then some .notReady
  else if s.engine = .stopping then some .notReady
  else none

/-- Check 5 for the record (R135, R139, R141, R146, R147). -/
def stateRefusal (s : State) (b : List Byte) : Option Status :=
  let op := adminOpcode b
  if op = opConfigureQueue then (if (s.queue (adminQueue b)).state = .disabled then none else some .busy)
  else if op = opEnableQueue then enableRefusal s (s.queue (adminQueue b))
  else if op = opResumeQueue then (if (s.queue (adminQueue b)).state = .halted then none else some .busy)
  else if op = opConfigureCq then (if ringBusy s (adminRingIndex b) then some .busy else none)
  else none

/-- The five checks of R135 in their order: the status and sub-status of the first that fails. -/
def adminCheck (s : State) (b : List Byte) : Option (Status × Sub) :=
  match opcodeRow (adminOpcode b) with
  | none => some (.unknown, .none)
  | some row =>
    if !adminReservedOk row b then some (.invalid, .invalidReserved)
    else if !adminIndexOk row b then some (.invalid, .invalidIndex)
    else if !adminParametersOk b then some (.invalid, .invalidParameter)
    else
      match stateRefusal s b with
      | some status => some (status, .none)
      | none => none

/-! ## Carrying a record out (R136) -/

/-- The admin unit goes on waiting in EXECUTING (R137). -/
def waitFor (b : List Byte) (p : AdminPoint) (s : State) : State := { s with admin := .executing b p }

/-! ## The commands' effects -/

/-- SET ENGINE (R138): both settings are replaced; the detail holds the old ones (R174). -/
def setEngine (b : List Byte) (s : State) : State :=
  completeAdmin b .ok .none (s.requestTimeout + 4294967296 * s.stopGrace)
    { s with requestTimeout := paramTimeout b, stopGrace := paramGrace b }

/-- The descriptor a CONFIGURE QUEUE leaves (R140). -/
def configuredQueue (b : List Byte) (d : Queue) : Queue :=
  { d with ringBase := paramRingBase b, ringSize := paramRingSize b, level := paramLevel b,
           ring := some (Fin.ofNat 4 (paramRing b)), policy := if paramPolicy b = 1 then .skip else .halt,
           head := 0, tail := 0, haltCause := .none }

/-- CONFIGURE QUEUE (R140). -/
def configureQueue (b : List Byte) (s : State) : State :=
  let q := adminQueue b
  completeAdmin b .ok .none 0 (s.setQueue q (configuredQueue b (s.queue q)))

/-- ENABLE QUEUE once its table lets it pass (R141); a queue that enters IDLE is an event for selection (R31), which stands behind no
other claim unless a BROKEN CQ0 makes the completion's entry free (R109, R110; log 6). -/
def enableQueue (b : List Byte) (s : State) : State :=
  let q := adminQueue b
  let d := s.queue q
  if d.state = .disabled then selectOnIdle s (completeAdmin b .ok .none 0 (s.setQueue q { d with state := .idle }))
  else completeAdmin b .ok .unchanged 0 s

/-- A DISABLE QUEUE is applied to the queue's state as it stands (R142, R143); `none` while it must wait for a free entry. -/
def applyDisable (b : List Byte) (q : WqId) (s : State) : Option State :=
  let d := s.queue q
  match d.state with
  | .disabled => some (completeAdmin b .ok .immediate 0 s)
  | .idle | .halted =>
    let s := emptySlot q s
    some (completeAdmin b .ok .immediate 0
      (s.setQueue q { s.queue q with state := .disabled, haltCause := .none }))
  | .running | .suspended =>
    if d.drain then some (completeAdmin b .ok .deferred 0 s)
    else if s.engine = .stopping then some (completeAdmin b .ok .deferred 0 s)
    else if hasFree s then
      let s := (reserve (.drain q) 0 s).setQueue q { d with drain := true }
      some (completeAdmin b .ok .deferred 0 (emptySlot q s))
    else none

/-- DISABLE QUEUE (R142, R143). DESIGN CHOICE (log 24): where the emptied slot frees an entry (R31, R63), the completion is placed
before the entries of what the selection of this step starts and ends; R110 leaves the order open. -/
def disableQueue (b : List Byte) (s : State) : State :=
  match applyDisable b (adminQueue b) s with
  | some t => t
  | none => waitFor b (.waitEntry (adminQueue b)) s

/-- The queue owns the active context. -/
def ownsActive (s : State) (q : WqId) : Bool :=
  match s.active with
  | some c => decide (c.queue = q)
  | none => false

/-- ABORT QUEUE (R42, R43, R144, R145). DESIGN CHOICE (log 24): with a report of NONE or STACKED the completion is placed before the
entries of this step's selection on an entry that the abort frees; R110 leaves the order open. -/
def abortQueue (b : List Byte) (s : State) : State :=
  let q := adminQueue b
  if ownsActive s q then waitFor b (.waitReport q) (s.setQueue q { s.queue q with abortPending := true })
  else
    match stackedContext s q with
    | some c => finishAbort b q .stacked (abortStacked c s)
    | none => finishAbort b q .none s

/-- The descriptor a RESUME QUEUE leaves (R70). -/
def resumedQueue (skip : Bool) (d : Queue) : Queue :=
  { d with state := .idle, haltCause := .none,
           head := if d.haltCause = .fetch ∧ skip then (d.head + 1) % d.ringSize else d.head }

/-- The sub-status of a RESUME QUEUE (R146). -/
def resumeSub (skip : Bool) (d : Queue) : Sub :=
  if !skip then .none else if d.haltCause = .fetch then .skipped else .skipIgnored

/-- RESUME QUEUE (R70, R146); the selection on the queue's IDLE is as for ENABLE QUEUE (R31, R109; log 6). -/
def resumeQueue (b : List Byte) (s : State) : State :=
  let q := adminQueue b
  let d := s.queue q
  let skip := bitOf (adminOptions b) 0
  selectOnIdle s (completeAdmin b .ok (resumeSub skip d) 0 (s.setQueue q (resumedQueue skip d)))

/-- The descriptor a CONFIGURE CQ leaves; its counts are kept (R148). -/
def configuredRing (b : List Byte) (r : Ring) : Ring :=
  { r with state := .active, base := paramRingBase b, size := paramRingSize b, head := 0, tail := 0, phase := true,
           threshold := paramThreshold b, ageLimit := paramAgeLimit b, notifyPending := false, unannounced := 0,
           ageTimer := none }

/-- CONFIGURE CQ (R148). -/
def configureCq (b : List Byte) (s : State) : State :=
  let c := adminRingIndex b
  completeAdmin b .ok .none 0 (s.setRing c (configuredRing b (s.ring c)))

/-- An update is handed to the aperture table (R83, R149): applied at once when no segment is in flight, else it waits. -/
def handUpdate (u : ApertureUpdate) (b : List Byte) (s : State) : State :=
  if s.segment.isSome then waitFor b .waitUpdate { s with waitingUpdate := some u }
  else completeAdmin b .ok .none 0 (applyUpdate u s)

/-- LOAD APERTURE (R82, R85, R149). -/
def loadAperture (b : List Byte) (s : State) : State :=
  handUpdate ⟨adminAperture b, some (loadedAperture b)⟩ b s

/-- CLEAR APERTURE (R85, R149). -/
def clearAperture (b : List Byte) (s : State) : State := handUpdate ⟨adminAperture b, none⟩ b s

/-- Every counter at 0 (R150). -/
def clearCounters (s : State) : State :=
  let s := allQueues.foldl (fun s q => s.setQueue q
    { s.queue q with endedOk := 0, endedFault := 0, endedAborted := 0, timesSuspended := 0, discarded := 0 }) s
  let s := allRings.foldl (fun s c => s.setRing c { s.ring c with written := 0, discarded := 0 }) s
  { s with counters := EngineCounters.reset }

/-- READ STATISTICS (R150, R151): the capture, the clear option, and the four writes. -/
def readStatistics (b : List Byte) (s : State) : State :=
  let block := statisticsBlock s
  let s := if bitOf (adminOptions b) 0 then clearCounters s else s
  let writes := [0, 64, 128, 192].map fun off => (⟨paramAddress b + off, slice block off 64, .waiting⟩ : AdminWrite)
  waitFor b (.writing writes none) s

/-- QUERY QUEUE (R152). -/
def queryQueue (b : List Byte) (s : State) : State :=
  waitFor b (.writing [⟨paramAddress b, queueReport s (adminQueue b), .waiting⟩] none) s

/-- MARK (R153). -/
def markRecord (b : List Byte) (s : State) : State := completeAdmin b .ok .none 0 s

/-! ## Executing a record (R132, R135, R136) -/

/-- The effect of a record that has passed its checks, by its opcode (R136). -/
def carryOut (b : List Byte) : State → State :=
  let op := adminOpcode b
  if op = opSetEngine then setEngine b
  else if op = opConfigureQueue then configureQueue b
  else if op = opEnableQueue then enableQueue b
  else if op = opDisableQueue then disableQueue b
  else if op = opAbortQueue then abortQueue b
  else if op = opResumeQueue then resumeQueue b
  else if op = opConfigureCq then configureCq b
  else if op = opLoadAperture then loadAperture b
  else if op = opClearAperture then clearAperture b
  else if op = opReadStatistics then readStatistics b
  else if op = opQueryQueue then queryQueue b
  else markRecord b

/-- A checked record is refused with its completion, or has the effect `run` (R135, R136); the step ends with the claims of a freed
entry (R31, R109), the stop's progress and the grants. -/
def executeRecord (refusal : Option (Status × Sub)) (run : List Byte → State → State) (b : List Byte) (s : State) : State :=
  finishStep
    (selectOnFree s
      (match refusal with
       | some (status, sub) => completeAdmin b status sub 0 s
       | none => run b s))

/-! ## What comes before the next event -/

/-- A record that has been checked is completed or carried out before any event that is not its own row, so that nothing comes
between its data, its checks and its command (R132, R135; log 5). -/
def settleRecord (s : State) : State :=
  match s.admin with
  | .executing b (.checked refusal) => executeRecord refusal carryOut b s
  | _ => s

/-- A claim that the scheduler deferred is made before any event that is no other holder's claim (R31, R109; log 6). -/
def settleDeferred (s : State) : State := if s.claimDeferred then grantAll (select s) else s

/-- A DISABLE QUEUE that waits for a free entry looks at its queue again and is applied to the state it finds (R143); `none` while
it must wait on. Its completion, too, is placed before the entries of the selection that follows (DESIGN CHOICE, log 24); a claim
that the scheduler deferred is then taken up again (R109). -/
def lookAgain (s : State) : Option State :=
  match s.admin with
  | .executing b (.waitEntry q) =>
    match applyDisable b q s with
    | some t => some (finishStep (if s.claimDeferred then settleClaim s t else selectOnFree s t))
    | none => none
  | _ => none

/-- A waiting DISABLE QUEUE whose queue has left its context, or which the start of a stop has found waiting, is applied before any
event, so that it sees the state that the change has left (R143; log 20). -/
def settleLook (s : State) : State := if lookDue s then (lookAgain s).getD s else s

/-- What comes before an event: the checked record, the deferred claim, the look that needs no entry, and the claim of an entry that
this look has freed. -/
def settleDue (s : State) : State := settleDeferred (settleLook (settleDeferred (settleRecord s)))

/-- DISABLE_QUEUE_APPLIED's event: the look of a DISABLE QUEUE that waits (R143); with none waiting, or no entry for it, nothing of
its own comes of it (log 1). -/
def disableApplied (s : State) : State :=
  match lookAgain s with
  | some t => t
  | none => settleDeferred s

/-- An admin row (R135, R136): the record just checked is completed or carried out by the row's own effect, when its opcode is the
row's. Without such a record the row's event is not possible and nothing comes of it (log 1). -/
def adminRow (mine : Nat → Bool) (run : List Byte → State → State) (s : State) : State :=
  match s.admin with
  | .executing b (.checked refusal) => if mine (adminOpcode b) then executeRecord refusal run b s else settleDue s
  | _ => settleDue s

end Sys2Proof.Machine
end

