-- ==== Sys2Proof/Machine/Resolve.lean ====
section
/-! DEFINITION. What each client does when one of its requests resolves (R96 to R98): the completion unit (R112, R118), the fetch
unit (R62 to R66), the admin unit (R132, R133, R151, R152) and the mover (R14); and how the memory port takes a response or an
expiry on a tag (R96 to R99, R102). -/

namespace Sys2Proof.Machine

/-! ## Completion unit -/

/-- The occupied entry of a ring whose write is in flight. -/
def entryInFlight (s : State) (c : CqId) : Option Occupied := s.occupied.find? fun o => decide (o.ring = c) && o.inFlight

/-- The list without the first entry of a ring whose write is in flight. -/
def removeInFlight (c : CqId) : List Occupied → List Occupied
  | [] => []
  | o :: os => if o.ring = c ∧ o.inFlight then os else o :: removeInFlight c os

/-- A ring's descriptor when the write of entry `o` is acknowledged (R112, R115, R121, R122). -/
def writtenRing (r : Ring) (o : Occupied) : Ring :=
  let tail := (r.tail + 1) % r.size
  let count := r.unannounced + 1
  { r with tail := tail, phase := if tail = 0 then !r.phase else r.phase, written := bump r.written, unannounced := count,
           notifyPending := r.notifyPending || entryNotifies r.threshold count o,
           ageTimer := if r.unannounced = 0 ∧ r.ageLimit ≠ 0 then some r.ageLimit else r.ageTimer }

/-- The ACK of an entry's write (R112): the entry becomes free, the ring moves on, and the freed entry is claimed (R31, R109). -/
def entryWritten (c : CqId) (s : State) : State :=
  match entryInFlight s c with
  | none => s
  | some o =>
    claimFreed { s.setRing c (writtenRing (s.ring c) o) with occupied := removeInFlight c s.occupied }

/-- A write of an entry fails (R118): the ring is BROKEN and every occupied entry bound for it is discarded and counted. -/
def ringBroken (c : CqId) (s : State) : State :=
  match entryInFlight s c with
  | none => s
  | some _ =>
    let lost := (s.occupied.filter fun o => o.ring == c).length
    claimFreed
      { s.setRing c { s.ring c with state := .broken, discarded := bumpBy (s.ring c).discarded lost } with
        occupied := s.occupied.filter fun o => o.ring != c }

/-! ## Fetch unit -/

/-- A fetch's data is taken (R62). -/
def fetchData (f : Fetch) (b : List Byte) (s : State) : State :=
  let d := s.queue f.queue
  let slot : Slot := match d.slot with | .filling true => .empty | _ => .full b
  claimFreed { (release .fetch s).setQueue f.queue { d with slot := slot } with fetch := none }

/-- A queue owns a context while it is RUNNING or SUSPENDED (R26). -/
def ownsContext (d : Queue) : Bool := d.state == .running || d.state == .suspended

/-- The FETCH_ERROR entry of a work queue (R66). -/
def fetchErrorEntry (d : Queue) (q : WqId) (timeout : Bool) : Entry :=
  { status := .fetchError, sub := if timeout then .fetchTimeout else .fetchError, queue := wqNumber q, tag := 0,
    head := d.head, progress := 0, detail := d.ringBase + 64 * d.head }

/-- A fetch fails: cancelled, it is dropped (R63); a look-ahead sets the hold (R65); otherwise the queue is HALTED with cause FETCH
and a FETCH_ERROR entry is placed (R64). -/
def fetchFailed (f : Fetch) (timeout : Bool) (s : State) : State :=
  let d := s.queue f.queue
  let t := { s with fetch := none }
  if d.slot = .filling true then
    claimFreed ((release .fetch t).setQueue f.queue { d with slot := .empty })
  else if ownsContext d then
    claimFreed ((release .fetch t).setQueue f.queue { d with slot := .empty, hold := true })
  else
    selectOnFree s
      (place .fetch f.ring (fetchErrorEntry d f.queue timeout) false false
        (t.setQueue f.queue { d with slot := .empty, state := .halted, haltCause := .fetch }))

/-- The fetch unit takes the resolution of its read. -/
def fetchTakes (r : Resolution) (s : State) : State :=
  match s.fetch with
  | none => s
  | some f =>
    match r with
    | .data b => fetchData f b s
    | .timeout => fetchFailed f true s
    | _ => fetchFailed f false s

/-! ## Admin unit -/

/-- An admin FETCH_ERROR entry (R120, R133). -/
def adminFetchErrorEntry (ring : AdminRing) (index : Nat) (timeout : Bool) : Entry :=
  { status := .fetchError, sub := if timeout then .fetchTimeout else .fetchError, queue := 0, tag := 0, head := index,
    progress := 0, detail := ring.base + 64 * index }

/-- The admin unit takes the resolution of its record's read: the record is consumed, held and checked (R132), or the unit is
HALTED and a FETCH_ERROR entry placed (R133). -/
def adminRecordTakes (r : Resolution) (s : State) : State :=
  match s.admin with
  | .fetching i _ =>
    match r with
    | .data b =>
      let t := { s with adminRing := { s.adminRing with head := (s.adminRing.head + 1) % s.adminRing.size } }
      { t with admin := .executing b (.checked (adminCheck t b)) }
    | _ =>
      selectOnFree s
        (place .adminRecord 0 (adminFetchErrorEntry s.adminRing i (r == .timeout)) false false { s with admin := .halted i })
  | _ => s

/-- The writes of a block or report are settled when none is out and, unless one has failed, none waits (R151). -/
def writesSettled (ws : List AdminWrite) (f : Option WriteFailure) : Bool :=
  match f with
  | some _ => !ws.any fun w => w.progress == .issued
  | none => ws.all fun w => w.progress == .resolved

/-- The first failure of a block's or report's writes after write `k` has resolved (R151). -/
def writeFailureAfter (ws : List AdminWrite) (f : Option WriteFailure) (k : Nat) (r : Resolution) : Option WriteFailure :=
  match f, r with
  | some f, _ => some f
  | none, .ack => none
  | none, r =>
    match ws[k]? with
    | some w => some ⟨r == .timeout, w.address⟩
    | none => none

/-- The admin unit takes the resolution of write `k` of its block or report, and completes when its writes are settled (R151,
R152). -/
def adminWriteTakes (k : Nat) (r : Resolution) (s : State) : State :=
  match s.admin with
  | .executing record (.writing ws f) =>
    let f' := writeFailureAfter ws f k r
    let ws' := ws.modify k fun w => { w with progress := .resolved }
    if writesSettled ws' f' then
      selectOnFree s
        (match f' with
         | none => completeAdmin record .ok .none 0 s
         | some e => completeAdmin record (if e.timeout then .memTimeout else .memError) .none e.address s)
    else { s with admin := .executing record (.writing ws' f') }
  | _ => s

/-! ## The port's events on a tag -/

/-- The owning client is handed the resolution of its request (R96 to R98). -/
def resolve (o : Owner) (r : Resolution) (s : State) : State :=
  match o with
  | .completion c => match r with | .ack => entryWritten c s | .data _ => entryWritten c s | _ => ringBroken c s
  | .adminRecord => adminRecordTakes r s
  | .rootRead => rootResolved r s
  | .adminWrite k => adminWriteTakes k r s
  | .fetch => fetchTakes r s
  | .mover k => moverTakes k r s

/-- What a response means for a request (R90): DATA for a WRITE and ACK for a READ are taken as ERROR. -/
def resolutionOf (kind : ReqKind) (length : Nat) (r : Result) : Resolution :=
  match kind, r with
  | .read, .data b => .data (responseBytes length b)
  | .write, .ack => .ack
  | _, _ => .error

/-- A stray response (R102). -/
def takeStray (s : State) : State :=
  { s with counters := { s.counters with strayResponses := bump s.counters.strayResponses },
           flags := { s.flags with stray := true } }

/-- A late response on a STALE tag (R99). -/
def takeLate (t : TagId) (s : State) : State :=
  grantAll
    { s.setTag t .free with counters := { s.counters with lateResponses := bump s.counters.lateResponses } }

/-- A response on an IN_USE tag (R96, R97): it is handed to the owner, whose asks are served from the tags then FREE; the tag then
becomes FREE and the grant rule runs (log 7). -/
def takeAnswer (t : TagId) (o : Owner) (kind : ReqKind) (length : Nat) (r : Result) (s : State) : State :=
  grantAll ((finishStep (resolve o (resolutionOf kind length r) s)).setTag t .free)

/-- A response as the memory port takes it: its effect depends on the state of the tag it names (R90). -/
def portTakes (tag : BitVec 8) (r : Result) (s : State) : State :=
  if h : tag.toNat < 32 then
    let t : TagId := ⟨tag.toNat, h⟩
    match s.tag t with
    | .free => takeStray s
    | .stale => takeLate t s
    | .inUse o kind _ length _ => takeAnswer t o kind length r s
  else takeStray s

/-- A response arrives; while RESET_N is low it is not taken and not counted (R180). -/
def takeResponse (tag : BitVec 8) (r : Result) (s : State) : State := unlessHeld (portTakes tag r) (settleDue s)

/-- The timer of an IN_USE tag expires (R98): the tag becomes STALE, the owner is handed TIMEOUT, the count rises. On a tag that is
not IN_USE no timer runs and nothing happens (log 1). -/
def takeTimeout (t : TagId) (s : State) : State :=
  match s.tag t with
  | .inUse o _ _ _ _ =>
    finishStep
      (resolve o .timeout
        { s.setTag t .stale with
          counters := { s.counters with requestTimeouts := bump s.counters.requestTimeouts } })
  | _ => s

end Sys2Proof.Machine
end

