-- ==== Sys2Proof/Machine/AdminCommands.lean ====
section
/-! DEFINITION. The meanings of the admin commands (chapter 7): each completes or carries out the record that the admin unit has just
checked (R132, R135, R136). -/

namespace Sys2Proof.Machine

/-- The opcode is this one. -/
def isOp (op : Nat) : Nat → Bool := fun n => n == op

/-- UNKNOWN_OPCODE (R135): an opcode that is not assigned fails check 1. -/
def execUnknownOpcode (s : State) : Host.Outcome State Fault Refusal :=
  .next (adminRow (fun op => (opcodeRow op).isNone) markRecord s)

/-- SET_ENGINE (R138). -/
def execSetEngine (s : State) : Host.Outcome State Fault Refusal := .next (adminRow (isOp opSetEngine) setEngine s)

/-- CONFIGURE_QUEUE (R139, R140). -/
def execConfigureQueue (s : State) : Host.Outcome State Fault Refusal := .next (adminRow (isOp opConfigureQueue) configureQueue s)

/-- ENABLE_QUEUE (R141). -/
def execEnableQueue (s : State) : Host.Outcome State Fault Refusal := .next (adminRow (isOp opEnableQueue) enableQueue s)

/-- DISABLE_QUEUE (R142, R143). -/
def execDisableQueue (s : State) : Host.Outcome State Fault Refusal := .next (adminRow (isOp opDisableQueue) disableQueue s)

/-- DISABLE_QUEUE_APPLIED (R143). -/
def execDisableQueueApplied (s : State) : Host.Outcome State Fault Refusal := .next (disableApplied (settleRecord s))

/-- ABORT_QUEUE (R144, R145). -/
def execAbortQueue (s : State) : Host.Outcome State Fault Refusal := .next (adminRow (isOp opAbortQueue) abortQueue s)

/-- RESUME_QUEUE (R146). -/
def execResumeQueue (s : State) : Host.Outcome State Fault Refusal := .next (adminRow (isOp opResumeQueue) resumeQueue s)

/-- CONFIGURE_CQ (R147, R148). -/
def execConfigureCq (s : State) : Host.Outcome State Fault Refusal := .next (adminRow (isOp opConfigureCq) configureCq s)

/-- LOAD_APERTURE (R149). -/
def execLoadAperture (s : State) : Host.Outcome State Fault Refusal := .next (adminRow (isOp opLoadAperture) loadAperture s)

/-- CLEAR_APERTURE (R149). -/
def execClearAperture (s : State) : Host.Outcome State Fault Refusal := .next (adminRow (isOp opClearAperture) clearAperture s)

/-- READ_STATISTICS (R150, R151). -/
def execReadStatistics (s : State) : Host.Outcome State Fault Refusal := .next (adminRow (isOp opReadStatistics) readStatistics s)

/-- QUERY_QUEUE (R152). -/
def execQueryQueue (s : State) : Host.Outcome State Fault Refusal := .next (adminRow (isOp opQueryQueue) queryQueue s)

/-- MARK (R153). -/
def execMark (s : State) : Host.Outcome State Fault Refusal := .next (adminRow (isOp opMark) markRecord s)

end Sys2Proof.Machine
end

