-- ==== Sys2Proof/Machine/HostPort.lean ====
section
/-! DEFINITION. The register port and its meanings: the resets, CONTROL, FLAGS, ROOT_LO and ROOT_HI, misuse, POST and CQ_ACK
(R52 to R54, R116, R117, R130, R134, R155 to R157, R166 to R170, R179, R180). -/

namespace Sys2Proof.Machine

/-- A write of FLAGS (R169). -/
def writeFlags (v : Reg) (s : State) : State := { s with flags := clearFlags v s.flags }

/-! ## POST (R52 to R54, R130, R134) -/

/-- The fields of POST and CQ_ACK (R178). -/
def portIndex (v : Reg) : Nat := (v.extractLsb' 0 16).toNat
def portReserved (v : Reg) : Nat := (v.extractLsb' 16 8).toNat
def portNumber (v : Reg) : Nat := (v.extractLsb' 24 8).toNat

/-- Checks 2 and 3 of R53 and R130: the new tail is below the size and does not lower the posted count. -/
def tailAccepted (size head tail new : Nat) : Bool :=
  decide (new < size) && decide (postedCount size head tail ≤ postedCount size head new)

/-- A POST for a work queue (R53, R54). -/
def postToQueue (q : WqId) (new : Nat) (s : State) : State :=
  let d := s.queue q
  if d.ringSize ≠ 0 ∧ tailAccepted d.ringSize d.head d.tail new then s.setQueue q { d with tail := new } else rejectPost s

/-- The admin unit when a POST to queue 0 is accepted: a halt ends (R134). -/
def endHalt : AdminState → AdminState
  | .halted _ => .idle
  | a => a

/-- A POST for queue 0 (R130, R134). -/
def postToAdmin (new : Nat) (s : State) : State :=
  let r := s.adminRing
  if s.engine = .running ∧ tailAccepted r.size r.head r.tail new then
    { s with adminRing := { r with tail := new }, admin := endHalt s.admin }
  else rejectPost s

/-- A write of POST (R52, R179). -/
def writePost (v : Reg) (s : State) : State :=
  if portReserved v ≠ 0 ∨ 8 < portNumber v then rejectPost s
  else if portNumber v = 0 then postToAdmin (portIndex v) s
  else postToQueue (Fin.ofNat 8 (portNumber v - 1)) (portIndex v) s

/-! ## CQ_ACK (R116, R117) -/

/-- Checks 1 and 2 of R116: the ring is not UNCONFIGURED, and the new head lies in ring order from head up to tail. -/
def ackAccepted (r : Ring) (new : Nat) : Bool :=
  r.state != .unconfigured && decide (new < r.size)
  && decide (postedCount r.size r.head new ≤ postedCount r.size r.head r.tail)

/-- An accepted CQ_ACK (R117); a ring that has become ready has its entry's write issued (R111). -/
def acceptAck (c : CqId) (new : Nat) (s : State) : State :=
  grantAll
    (s.setRing c { s.ring c with head := new, notifyPending := false, unannounced := 0, ageTimer := none })

/-- A write of CQ_ACK (R116, R179). -/
def writeAck (v : Reg) (s : State) : State :=
  if portReserved v ≠ 0 ∨ 3 < portNumber v then rejectAck s
  else
    let c : CqId := Fin.ofNat 4 (portNumber v)
    if ackAccepted (s.ring c) (portIndex v) then acceptAck c (portIndex v) s else rejectAck s

/-! ## Any access (R170, R179) -/

/-- A 32-bit access aligned to one of the eight registers (R170). -/
def wellFormedAccess (a : Access) : Bool := a.bytes == 4 && a.offset % 4 == 0 && decide (a.offset < 32)

/-- A well-formed write, by offset (R170, R178). ID and STATUS ignore it. -/
def portWrite (offset : Nat) (v : Reg) (s : State) : State :=
  if offset = 0x04 then writeControl v s
  else if offset = 0x0C then writeFlags v s
  else if offset = 0x10 then { s with rootLo := v }
  else if offset = 0x14 then { s with rootHi := v }
  else if offset = 0x18 then writePost v s
  else if offset = 0x1C then writeAck v s
  else s

/-- What a read returns: the register's value, 0 for a misused access (R170), and 0 while RESET_N is low (R180). -/
def readRegister (s : State) (a : Access) : Reg :=
  if s.heldEvents ≠ 0 then 0 else if wellFormedAccess a then registerValue s a.offset else 0

/-- One access at the register port (R170): a misused one sets FLAGS.BAD_ACCESS, a misused read answers 0, a misused write is
ignored; a well-formed one reads or writes its register. While RESET_N is low a read answers 0, nothing is written and no flag is
set (R180). -/
def portAccess (a : Access) (s : State) : State :=
  let t := if a.isWrite then s else { s with readData := readRegister s a }
  unlessHeld
    (fun t =>
      if wellFormedAccess a then (if a.isWrite then portWrite a.offset a.value t else t)
      else { t with flags := { t.flags with badAccess := true } }) t

/-! ## The meanings -/

/-- POWER_ON_RESET (R105, R167, R180). -/
def execPowerOnReset (s : State) : Host.Outcome State Fault Refusal := .next (powerOnReset (settleDue s))

/-- SOFT_RESET (R166). -/
def execSoftReset (value : Reg) (s : State) : Host.Outcome State Fault Refusal :=
  .next (unlessHeld (writeControl value) (settleDue s))

/-- RUN_WRITTEN_1 (R156). -/
def execRunWritten1 (value : Reg) (s : State) : Host.Outcome State Fault Refusal :=
  .next (unlessHeld (writeControl value) (settleDue s))

/-- RUN_WRITTEN_0 (R156). -/
def execRunWritten0 (value : Reg) (s : State) : Host.Outcome State Fault Refusal :=
  .next (unlessHeld (writeControl value) (settleDue s))

/-- NOTIFY_ENABLE (R155). -/
def execNotifyEnable (value : Reg) (s : State) : Host.Outcome State Fault Refusal :=
  .next (unlessHeld (writeControl value) (settleDue s))

/-- FLAGS_CLEAR (R169). -/
def execFlagsClear (value : Reg) (s : State) : Host.Outcome State Fault Refusal :=
  .next (unlessHeld (writeFlags value) (settleDue s))

/-- REGISTER_WRITE (R157, R170): a 32-bit write at the offset. -/
def execRegisterWrite (offset : Nat) (value : Reg) (s : State) : Host.Outcome State Fault Refusal :=
  .next (portAccess ⟨true, 4, offset, value⟩ (settleDue s))

/-- MISUSED_ACCESS (R170). -/
def execMisusedAccess (access : Access) (s : State) : Host.Outcome State Fault Refusal :=
  .next (portAccess access (settleDue s))

/-- POST_WORK (R52, R53). -/
def execPostWork (value : Reg) (s : State) : Host.Outcome State Fault Refusal :=
  .next (unlessHeld (writePost value) (settleDue s))

/-- POST_ADMIN (R130). -/
def execPostAdmin (value : Reg) (s : State) : Host.Outcome State Fault Refusal :=
  .next (unlessHeld (writePost value) (settleDue s))

/-- CQ_ACK (R116, R117). -/
def execCqAck (value : Reg) (s : State) : Host.Outcome State Fault Refusal :=
  .next (unlessHeld (writeAck value) (settleDue s))

end Sys2Proof.Machine
end

