-- ==== Sys2Proof/Machine/Responses.lean ====
section
/-! DEFINITION. The meanings of the memory system's responses and of a request's timeout. A response row's effect is that of the
tag's state when it is taken (R90), whichever row names it (log 4). -/

namespace Sys2Proof.Machine

/-- DATA_OR_ACK_RESPONSE (R96). -/
def execDataOrAckResponse (tag : BitVec 8) (answer : Answer) (s : State) : Host.Outcome State Fault Refusal :=
  .next (takeResponse tag (match answer with | .data b => .data b | .ack => .ack) s)

/-- ERROR_RESPONSE (R97). -/
def execErrorResponse (tag : BitVec 8) (s : State) : Host.Outcome State Fault Refusal :=
  .next (takeResponse tag .error s)

/-- REQUEST_TIMEOUT (R98). -/
def execRequestTimeout (tag : TagId) (s : State) : Host.Outcome State Fault Refusal :=
  .next (takeTimeout tag (settleDue s))

/-- LATE_RESPONSE (R99). -/
def execLateResponse (tag : BitVec 8) (result : Result) (s : State) : Host.Outcome State Fault Refusal :=
  .next (takeResponse tag result s)

/-- STRAY_RESPONSE (R102). -/
def execStrayResponse (tag : BitVec 8) (result : Result) (s : State) : Host.Outcome State Fault Refusal :=
  .next (takeResponse tag result s)

end Sys2Proof.Machine
end

