-- ==== Sys2Proof/Machine/Timers.lean ====
section
/-! DEFINITION. The meanings of the expiry of a ring's age timer (R122) and of the stop-grace timer (R164). An expiry of a timer
that does not run changes nothing (log 1). -/

namespace Sys2Proof.Machine

/-- The age timer of a ring expires (R122). -/
def expireAge (c : CqId) (s : State) : State :=
  match (s.ring c).ageTimer with
  | some _ => s.setRing c { s.ring c with notifyPending := true, ageTimer := none }
  | none => s

/-- The stop-grace timer expires (R125, R164): the completion unit issues no further write, and what remains is dropped once no
write is in flight. -/
def expireGrace (s : State) : State :=
  match s.graceTimer with
  | .running _ => finishStep { s with graceTimer := .expired }
  | _ => s

/-- AGE_TIMER_EXPIRY (R122). -/
def execAgeTimerExpiry (ring : CqId) (s : State) : Host.Outcome State Fault Refusal :=
  .next (expireAge ring (settleDue s))

/-- STOP_GRACE_EXPIRY (R164). -/
def execStopGraceExpiry (s : State) : Host.Outcome State Fault Refusal :=
  .next (expireGrace (settleDue s))

end Sys2Proof.Machine
end

