-- ==== Sys2Proof/Machine/UnitClaims.lean ====
section
/-! DEFINITION. The meanings of the two claims that units make of their own accord: the admin unit's take-up (R131) and the fetch
unit's issue (R60, R61). A claim whose conditions do not hold changes nothing (log 1). -/

namespace Sys2Proof.Machine

/-- A take-up (R131): an entry for CQ0 is reserved, FETCHING entered, and a tag asked for. A claim that the scheduler
deferred is then taken up again (R109). -/
def takeUp (s : State) : State :=
  if canTakeUp s then
    grantAll (settleClaim s { reserve .adminRecord 0 s with admin := .fetching s.adminRing.head false })
  else settleDeferred s

/-- The fetch unit issues a fetch for a queue (R61): reservation, FILLING slot, BUSY, ask. A claim that the scheduler
deferred is then taken up again (R109). -/
def beginFetch (q : WqId) (s : State) : State :=
  let d := s.queue q
  let ring := d.ring.getD 0
  grantAll
    (settleClaim s
      { (reserve .fetch ring s).setQueue q { d with slot := .filling false } with
        fetch := some ⟨q, d.head, ring, false⟩ })

/-- The fetch unit's choice and issue (R61). -/
def fetchIssue (s : State) : State :=
  match fetchClaim s with
  | some q => beginFetch q s
  | none => settleDeferred s

/-- TAKE_UP (R131): a record carried out or a waiting DISABLE QUEUE applied first leaves the admin unit IDLE. -/
def execTakeUp (s : State) : Host.Outcome State Fault Refusal := .next (takeUp (settleLook (settleRecord s)))

/-- FETCH_ISSUE (R61). -/
def execFetchIssue (s : State) : Host.Outcome State Fault Refusal := .next (fetchIssue (settleLook (settleRecord s)))

end Sys2Proof.Machine
end

