-- ==== Sys2Proof/Machine/Dispatch.lean ====
section
/-! DEFINITION. The one dispatch: each command to its meaning. -/

namespace Sys2Proof.Machine

/-- The effect of a command on everything but the queue of waiting commands. -/
def exec (i : Instr) (s : State) : Host.Outcome State Fault Refusal :=
  match i with
  | .powerOnReset => Sys2Proof.Machine.execPowerOnReset s
  | .softReset v => Sys2Proof.Machine.execSoftReset v s
  | .runWritten1 v => Sys2Proof.Machine.execRunWritten1 v s
  | .runWritten0 v => Sys2Proof.Machine.execRunWritten0 v s
  | .notifyEnable v => Sys2Proof.Machine.execNotifyEnable v s
  | .flagsClear v => Sys2Proof.Machine.execFlagsClear v s
  | .registerWrite off v => Sys2Proof.Machine.execRegisterWrite off v s
  | .misusedAccess a => Sys2Proof.Machine.execMisusedAccess a s
  | .postWork v => Sys2Proof.Machine.execPostWork v s
  | .postAdmin v => Sys2Proof.Machine.execPostAdmin v s
  | .cqAck v => Sys2Proof.Machine.execCqAck v s
  | .unknownOpcode => Sys2Proof.Machine.execUnknownOpcode s
  | .setEngine => Sys2Proof.Machine.execSetEngine s
  | .configureQueue => Sys2Proof.Machine.execConfigureQueue s
  | .enableQueue => Sys2Proof.Machine.execEnableQueue s
  | .disableQueue => Sys2Proof.Machine.execDisableQueue s
  | .disableQueueApplied => Sys2Proof.Machine.execDisableQueueApplied s
  | .abortQueue => Sys2Proof.Machine.execAbortQueue s
  | .resumeQueue => Sys2Proof.Machine.execResumeQueue s
  | .configureCq => Sys2Proof.Machine.execConfigureCq s
  | .loadAperture => Sys2Proof.Machine.execLoadAperture s
  | .clearAperture => Sys2Proof.Machine.execClearAperture s
  | .readStatistics => Sys2Proof.Machine.execReadStatistics s
  | .queryQueue => Sys2Proof.Machine.execQueryQueue s
  | .mark => Sys2Proof.Machine.execMark s
  | .takeUp => Sys2Proof.Machine.execTakeUp s
  | .fetchIssue => Sys2Proof.Machine.execFetchIssue s
  | .dataOrAckResponse t a => Sys2Proof.Machine.execDataOrAckResponse t a s
  | .errorResponse t => Sys2Proof.Machine.execErrorResponse t s
  | .requestTimeout t => Sys2Proof.Machine.execRequestTimeout t s
  | .lateResponse t r => Sys2Proof.Machine.execLateResponse t r s
  | .strayResponse t r => Sys2Proof.Machine.execStrayResponse t r s
  | .ageTimerExpiry c => Sys2Proof.Machine.execAgeTimerExpiry c s
  | .stopGraceExpiry => Sys2Proof.Machine.execStopGraceExpiry s

end Sys2Proof.Machine
end

