-- ==== Sys2Proof/Safety.lean ====
section
/-! DEFINITION. What counts as a sound state of the engine: the laws the spec states of its blocks, each as a predicate on the
state; and the words in which claims say what a step leaves unchanged. -/

namespace Sys2Proof.Machine

/-! ## Words for frames -/

/-- A request's progress with its issue forgotten: waiting and issued look alike. -/
def Progress.unissued : Progress → Progress
  | .resolved => .resolved
  | _ => .waiting

/-- An admin unit with the issue of its requests forgotten. -/
def AdminState.unissued : AdminState → AdminState
  | .fetching i _ => .fetching i false
  | .executing b (.writing ws f) => .executing b (.writing (ws.map fun w => { w with progress := w.progress.unissued }) f)
  | a => a

/-- A segment with the issue of its requests forgotten. -/
def Segment.unissued (g : Segment) : Segment :=
  { g with requests := g.requests.map fun q => { q with progress := q.progress.unissued } }

/-- The state with everything forgotten that the grant of a tag and the issue of a request change (R95): the tags, the requests
sent, and in each unit the note that its request is out. Two states that agree in this agree in all else. -/
def State.unissued (s : State) : State :=
  { s with
    tags := Vector.replicate 32 .free
    sent := []
    rootRead := match s.rootRead with | .none => .none | _ => .waiting
    fetch := s.fetch.map fun f => { f with issued := false }
    segment := s.segment.map Segment.unissued
    occupied := s.occupied.map fun o => { o with inFlight := false }
    admin := s.admin.unissued }

/-- `b` is `a` after some waiting requests, possibly none, have been granted tags and issued: tags that were FREE are IN_USE with
the request timeout in force, the requests follow those sent before, and nothing else has changed (R95). -/
abbrev OnlyIssues (a b : State) : Prop :=
  b.unissued = a.unissued
  ∧ (∃ l, b.sent = a.sent ++ l)
  ∧ ∀ t, b.tag t = a.tag t ∨ (a.tag t = .free ∧ ∃ o k ad n, b.tag t = .inUse o k ad n a.requestTimeout)

/-- `b` is `a` after every waiting request that can be served has been (R93, R94; what that does, grant by grant, is
Obligations.GrantsServeEveryClientTheyCan). -/
abbrev AfterGrants (a b : State) : Prop := b = grantAll a

/-- `t` is `base` at the end of a step: a stop has gone on as far as it can (R164, R165; what that does is Obligations.TimersExpire),
and every waiting request that can be served has been (R93, R94). -/
abbrev EndsAs (base t : State) : Prop := AfterGrants (stopProgress base) t

/-- Nothing has to come before the next event: no record is checked, no claim is deferred, and a DISABLE QUEUE that waits still needs
its entry, its queue RUNNING or SUSPENDED with no drain requested and the engine not STOPPING (R143; logs 5, 6, 20). -/
abbrev NothingDue (s : State) : Prop :=
  s.claimDeferred = false ∧ (∀ b v, s.admin ≠ .executing b (.checked v))
  ∧ ∀ b q, s.admin = .executing b (.waitEntry q) →
      ((s.queue q).state = .running ∨ (s.queue q).state = .suspended) ∧ (s.queue q).drain = false ∧ s.engine ≠ .stopping

/-- The next event finds the machine as it stands: nothing has to come before it, and RESET_N is high (R180; logs 5, 6, 13, 20). -/
abbrev Ready (s : State) : Prop := s.heldEvents = 0 ∧ NothingDue s

/-- The tag field of a response that names a tag (R90, R180). -/
def tagField (t : TagId) : BitVec 8 := BitVec.ofNat 8 t.val

/-- The command that brings a resolution to the request of a tag: the response that names the tag, or the expiry of its timer (R96 to
R98). -/
def answerOf (tg : TagId) : Resolution → Instr
  | .data b => .dataOrAckResponse (tagField tg) (.data b)
  | .ack => .dataOrAckResponse (tagField tg) .ack
  | .error => .errorResponse (tagField tg)
  | .timeout => .requestTimeout tg

/-- The state in which the owner of the tag is handed the resolution: after a timeout the tag is STALE and counted (R98). -/
def handed (tg : TagId) (r : Resolution) (s : State) : State :=
  match r with
  | .timeout =>
    { s.setTag tg .stale with
      counters := { s.counters with requestTimeouts := min (s.counters.requestTimeouts + 1) 4294967295 } }
  | _ => s

/-- `t` is `base` at the end of the step that resolved the request of `tg`: after a response the asks are served, the tag becomes
FREE and the grant rule runs (R96, R97; log 7), after a timeout the tag stays STALE (R98). -/
def EndsResolved (tg : TagId) (r : Resolution) (base t : State) : Prop :=
  match r with
  | .timeout => EndsAs base t
  | _ => AfterGrants ((grantAll (stopProgress base)).setTag tg .free) t

/-- Selection has nothing to do (R30, R31): the engine is not RUNNING, the mover has a context, or no context is stacked and no
queue can start, because none is eligible or because the pending list is full. -/
abbrev NothingToStart (s : State) : Prop :=
  s.engine ≠ .running ∨ s.active ≠ none
  ∨ (s.stack = [] ∧ s.currentLevel = 0 ∧ (freeEntries s = 0 ∨ ∀ q, eligible s q = false))

/-- The row of the command table for an opcode of R174. -/
def commandOf (op : Nat) : Instr :=
  if op = opSetEngine then .setEngine
  else if op = opConfigureQueue then .configureQueue
  else if op = opEnableQueue then .enableQueue
  else if op = opDisableQueue then .disableQueue
  else if op = opAbortQueue then .abortQueue
  else if op = opResumeQueue then .resumeQueue
  else if op = opConfigureCq then .configureCq
  else if op = opLoadAperture then .loadAperture
  else if op = opClearAperture then .clearAperture
  else if op = opReadStatistics then .readStatistics
  else if op = opQueryQueue then .queryQueue
  else if op = opMark then .mark
  else .unknownOpcode

/-! ## Words for completions and ends -/

/-- `s` after an entry has been handed to the completion unit for a ring (R110): it is occupied, last in the order; for a BROKEN ring
it is discarded and counted. -/
def withEntry (c : CqId) (e : Entry) (now : Bool) (s : State) : State :=
  if (s.ring c).state = .broken then
    s.setRing c { s.ring c with discarded := min ((s.ring c).discarded + 1) 4294967295 }
  else { s with occupied := s.occupied ++ [⟨c, e, now, false⟩] }

/-- The completion entry of the record `b` in execution (R136). -/
def adminEntry (s : State) (b : List Byte) (status : Status) (sub : Sub) (detail : Nat) : Entry :=
  { status := status, sub := sub, queue := 0, tag := adminTag b, head := s.adminRing.head, progress := 0, detail := detail }

/-- `s` after the record `b` in execution has been completed into the pending list: the reservation of its take-up has become the
entry for CQ0, and the admin unit is IDLE (R136). -/
def withCompletion (s : State) (b : List Byte) (status : Status) (sub : Sub) (detail : Nat) : State :=
  withEntry 0 (adminEntry s b status sub detail) false
    { s with reserved := removeHolder .adminRecord s.reserved, admin := .idle }

/-- `s` after a context that has left its place has ended (R33, R34, R68): its entry, none under SUPPRESS after OK or MISMATCH; its
queue's state, halt cause, flags and counters; the DRAINED notice of a drain; the slot emptied by a halt. -/
def withEnd (c : Context) (status : Status) (sub : Sub) (progress detail : Nat) (byAbort : Bool) (s : State) : State :=
  let q := c.queue
  let d := s.queue q
  let fine : Prop := status = .ok ∨ status = .mismatch
  let fault : Prop := status = .malformed ∨ status = .align ∨ status = .aperture ∨ status = .memError ∨ status = .memTimeout
  let disables : Prop := byAbort = true ∨ s.engine = .stopping ∨ d.drain = true
  let halts : Prop := ¬ disables ∧ fault ∧ d.policy = .halt
  let freed : State := { s with reserved := removeHolder (.context q) s.reserved }
  let told : State :=
    if c.record.flags % 2 = 1 ∧ fine then freed
    else withEntry c.ring ⟨status, sub, q.val + 1, c.record.tag, (c.index + 1) % d.ringSize, progress, detail⟩
           (c.record.flags / 2 % 2 == 1) freed
  let left : State := told.setQueue q
    { d with
      state := if disables then .disabled else if halts then .halted else .idle
      haltCause := if halts then .record else d.haltCause
      drain := false, abortPending := false, hold := false
      endedOk := if fine then min (d.endedOk + 1) 4294967295 else d.endedOk
      endedFault := if fault then min (d.endedFault + 1) 4294967295 else d.endedFault
      endedAborted := if status = .aborted then min (d.endedAborted + 1) 4294967295 else d.endedAborted }
  let noted : State :=
    if d.drain then
      withEntry 0 ⟨.drained, if byAbort then .byAbort else if s.engine = .stopping then .byStop else .byDrain, q.val + 1, 0,
                   d.head, 0, 0⟩ false
        { left with reserved := removeHolder (.drain q) left.reserved }
    else left
  if halts then emptySlot q noted else noted

/-- `s` after the admin unit has finished the abort of a queue (R145): the slot emptied, the posted records discarded and counted,
the queue DISABLED, and the completion placed with their number. -/
def withAbortDone (b : List Byte) (q : WqId) (sub : Sub) (s : State) : State :=
  let e := emptySlot q s
  let d := e.queue q
  withCompletion
    (e.setQueue q { d with head := d.tail, state := .disabled, haltCause := .none
                           discarded := min (d.discarded + d.posted) 4294967295 }) b .ok sub d.posted

/-- `s` after its active context `c` has ended (R33, R36): an abort pending ends it as R34's first row says, and an ABORT QUEUE that
waits for the scheduler's report on the queue is finished with the status reported (R43, R145). -/
def withActiveEnd (c : Context) (status : Status) (sub : Sub) (progress detail : Nat) (s : State) : State :=
  let x := withEnd c status sub progress detail (s.queue c.queue).abortPending { s with active := none, currentLevel := 0 }
  match s.admin with
  | .executing b (.waitReport q) =>
    if q = c.queue then
      withAbortDone b q
        (match status with | .aborted => .active | .ok => .outcomeOk | .mismatch => .outcomeMismatch | _ => .outcomeFault) x
    else x
  | _ => x

/-- `s`, with `c` its active context, once `c` has gone on to its next segment; the start checks come first where it has just
started (R5, R8, R9), and a lookup that faults ends the record at its formation (R80). -/
def goesOn (c : Context) (fresh : Bool) (s : State) : State :=
  match if fresh then startCheck c.record else .goes with
  | .fails status sub => select (withActiveEnd c status sub 0 0 s)
  | .mark => select (withActiveEnd c .ok .none 0 0 s)
  | .goes =>
    match lookupOperands s c with
    | .ok (src, dst) => { s with segment := some (newSegment c src dst) }
    | .error (f, o, a) => select (withActiveEnd c .aperture (.lookup f o) c.done a s)

/-- `base`, the effect of a row on `s`, after the claims of an entry that it has made free; the DISABLE QUEUE that waited has made its
own, and a claim that the scheduler had deferred is then taken up again (R31, R109; log 6). -/
def afterClaims (i : Instr) (s base : State) : State :=
  if i = .disableQueueApplied ∧ s.claimDeferred = true then claimFreed { base with claimDeferred := false }
  else selectOnFree s base

/-! ## Words for admin records -/

/-- Some byte of `b` from offset `lo` up to but not including `hi` is not zero. -/
abbrev someByte (b : List Byte) (lo hi : Nat) : Prop := ∃ off ∈ List.range hi, lo ≤ off ∧ b.getD off 0 ≠ 0

/-- Checks 2 to 5 of R135 for a record whose opcode is assigned: what each of them finds, the first that fails deciding. -/
def verdictOf (reserved index parameter : Prop) [Decidable reserved] [Decidable index] [Decidable parameter]
    (state : Option Status) : Option (Status × Sub) :=
  if reserved then some (.invalid, .invalidReserved)
  else if index then some (.invalid, .invalidIndex)
  else if parameter then some (.invalid, .invalidParameter)
  else state.map fun st => (st, .none)

/-- An admin record passes checks 1 to 4 of R135, which depend on the record alone. -/
def recordOk (b : List Byte) : Bool :=
  match opcodeRow (adminOpcode b) with
  | none => false
  | some row => adminReservedOk row b && adminIndexOk row b && adminParametersOk b

/-- The admin unit has just taken and checked the record `b` of opcode `op`, and the record passes checks 1 to 4 (R132; log 5). -/
abbrev Holds (op : Nat) (b : List Byte) (s : State) : Prop :=
  s.admin = .executing b (.checked (adminCheck s b)) ∧ adminOpcode b = op ∧ recordOk b = true

/-! ## Contexts (R26) -/

/-- Every context, active or stacked (R26). -/
def contexts (s : State) : List Context := s.active.toList ++ s.stack

/-- The law of R26: a work queue owns at most one context; it is RUNNING exactly when it owns the active one and SUSPENDED exactly
when it owns a stacked one. -/
abbrev OwnershipLaw (s : State) : Prop :=
  ((contexts s).map fun c => c.queue).Nodup
  ∧ (∀ q, (s.queue q).state = .running ↔ q ∈ s.active.toList.map fun c => c.queue)
  ∧ (∀ q, (s.queue q).state = .suspended ↔ q ∈ s.stack.map fun c => c.queue)

/-- The flags of R56: a drain is requested only in RUNNING and SUSPENDED, an abort is pending only in RUNNING. -/
abbrev QueueFlagLaw (s : State) : Prop :=
  (∀ q, (s.queue q).drain = true → (s.queue q).state = .running ∨ (s.queue q).state = .suspended)
  ∧ (∀ q, (s.queue q).abortPending = true → (s.queue q).state = .running)

/-! ## The pending list (R108) -/

/-- The admin unit executes a record, from its take-up to its completion (R109). -/
def adminHolds (s : State) : Bool :=
  match s.admin with
  | .fetching _ _ => true
  | .executing _ _ => true
  | _ => false

/-- Who must hold a reservation: every context, every drain requested, the admin unit's record, the fetch in flight (R108). -/
def holders (s : State) : List Holder :=
  (contexts s).map (fun c => Holder.context c.queue)
  ++ (allQueues.filter (fun q => (s.queue q).drain)).map Holder.drain
  ++ (if adminHolds s then [.adminRecord] else [])
  ++ (if s.fetch.isSome then [.fetch] else [])

/-- The law of the pending list (R108): the reservations are exactly those of `holders`, and with the occupied entries they do not
exceed sixteen, the free entries being the rest. -/
abbrev PendingListLaw (s : State) : Prop :=
  (s.reserved.map (fun r => r.holder)).Perm (holders s)
  ∧ s.reserved.length + s.occupied.length ≤ Config.pendingEntries

/-! ## The scheduler (R25, R27, R29) -/

/-- The levels of a list of contexts strictly fall from the first to the last. -/
abbrev LevelsFall (l : List Context) : Prop := l.Pairwise fun a b => b.level < a.level

/-- The laws of R25 and R27: the current level is the active context's, 0 without one; the stack is empty without one; the
levels of the active context and of the stack from its top down strictly fall and lie in 1 to 7; every queue's level is at most
7. -/
abbrev SchedulerLaw (s : State) : Prop :=
  (s.active = none → s.stack = [] ∧ s.currentLevel = 0)
  ∧ (∀ c ∈ s.active, s.currentLevel = c.level)
  ∧ LevelsFall (contexts s)
  ∧ (∀ c ∈ contexts s, 1 ≤ c.level ∧ c.level ≤ 7)
  ∧ (∀ q, (s.queue q).level ≤ 7)

/-- The start order holds each work queue once (R29). -/
abbrev StartOrderLaw (s : State) : Prop := s.startOrder.Perm allQueues

/-! ## Work rings and positions (R9, R21, R50, R51) -/

/-- A descriptor's ring fields (R50, R51): unconfigured, DISABLED with head and tail 0, or configured with a ring of 8 to 4096
records and both indices inside it. -/
abbrev QueueShape (d : Queue) : Prop :=
  (d.ringSize = 0 ∧ d.state = .disabled ∧ d.head = 0 ∧ d.tail = 0)
  ∨ (8 ≤ d.ringSize ∧ d.ringSize ≤ 4096 ∧ d.head < d.ringSize ∧ d.tail < d.ringSize)

/-- Every descriptor has its shape, and only configured queues own contexts or a fetch (R50, R51). -/
abbrev WorkRingLaw (s : State) : Prop :=
  (∀ q, QueueShape (s.queue q))
  ∧ (∀ c ∈ contexts s, (s.queue c.queue).ringSize ≠ 0)
  ∧ (∀ f ∈ s.fetch, (s.queue f.queue).ringSize ≠ 0)

/-- A context's position (R9, R21): its record passed the start checks, its row and offset lie inside the data, and bytes done is
row index times row length plus byte offset. -/
abbrev PositionOk (c : Context) : Prop :=
  startCheck c.record = .goes ∧ c.row < c.record.rows ∧ c.offset < c.record.rowLength
  ∧ c.done = c.row * c.record.rowLength + c.offset

/-- Every context has a position inside its data, and the segment in flight is a part of the active context's row (R9, R10, R21). -/
abbrev PositionLaw (s : State) : Prop :=
  (∀ c ∈ contexts s, PositionOk c)
  ∧ (∀ g ∈ s.segment, ∃ c ∈ s.active, 0 < g.length ∧ c.offset + g.length ≤ c.record.rowLength)

/-! ## Counters and settings (R73, R103, R127, R171) -/

/-- A counter stands at or below its limit. -/
abbrev CounterOk (n : Nat) : Prop := n ≤ Config.counterMax

/-- Every one of the 54 counters stands at or below its limit (R73, R127, R171). -/
abbrev CounterLaw (s : State) : Prop :=
  (∀ q, CounterOk (s.queue q).endedOk ∧ CounterOk (s.queue q).endedFault ∧ CounterOk (s.queue q).endedAborted
        ∧ CounterOk (s.queue q).timesSuspended ∧ CounterOk (s.queue q).discarded)
  ∧ (∀ c, CounterOk (s.ring c).written ∧ CounterOk (s.ring c).discarded)
  ∧ CounterOk s.counters.requestTimeouts ∧ CounterOk s.counters.lateResponses ∧ CounterOk s.counters.strayResponses
  ∧ CounterOk s.counters.rejectedPosts ∧ CounterOk s.counters.rejectedAcks ∧ CounterOk s.counters.droppedAtStop

/-- Both engine settings stay in their ranges (R171). -/
abbrev SettingsLaw (s : State) : Prop :=
  1 ≤ s.requestTimeout ∧ s.requestTimeout ≤ 65535 ∧ 1 ≤ s.stopGrace ∧ s.stopGrace ≤ 255

/-! ## Engine states (R154, R156, R158, R164) -/

/-- What RUN, the root read, the stop-grace timer and the other units can be in each engine state. RUN is 0 in STOPPED and 1 in
RUNNING and FAILED (R156); a root read waits or is out exactly in STARTING, and waits only with RUN 1 (R158); the grace timer has
started only in STOPPING with all units idle (R164); outside RUNNING nothing is stacked, and outside RUNNING and STOPPING every
unit is idle (R45, R128, R154). -/
abbrev EngineLaw (s : State) : Prop :=
  (s.engine = .stopped → s.run = false)
  ∧ (s.engine = .running → s.run = true)
  ∧ (s.engine = .failed → s.run = true)
  ∧ (s.engine = .starting ↔ s.rootRead ≠ .none)
  ∧ (s.rootRead = .waiting → s.run = true)
  ∧ (s.graceTimer ≠ .stopped → s.engine = .stopping ∧ unitsIdle s = true)
  ∧ (s.engine ≠ .running → s.stack = [])
  ∧ (s.engine ≠ .running → s.engine ≠ .stopping →
      s.active = none ∧ s.segment = none ∧ s.fetch = none ∧ s.admin = .idle)

/-! ## Completion rings (R109, R113, R124) -/

/-- No reservation, entry, context, fetch or enabled queue is bound for an UNCONFIGURED ring; CQ0 is configured while the engine
runs or stops, and no queue is bound to it (R109). -/
abbrev BindingLaw (s : State) : Prop :=
  (∀ r ∈ s.reserved, (s.ring r.ring).state ≠ .unconfigured)
  ∧ (∀ o ∈ s.occupied, (s.ring o.ring).state ≠ .unconfigured)
  ∧ (∀ c ∈ contexts s, c.ring ≠ 0 ∧ (s.ring c.ring).state ≠ .unconfigured)
  ∧ (∀ f ∈ s.fetch, f.ring ≠ 0 ∧ (s.ring f.ring).state ≠ .unconfigured)
  ∧ (∀ q, (s.queue q).state ≠ .disabled →
      (s.queue q).ring ≠ none ∧ ∀ c, (s.queue q).ring = some c → (s.ring c).state ≠ .unconfigured)
  ∧ (∀ q c, (s.queue q).ring = some c → c ≠ 0)
  ∧ (s.engine = .running ∨ s.engine = .stopping → (s.ring 0).state ≠ .unconfigured)

/-- A ring that is UNCONFIGURED asks for no attention and keeps no indices (R113, R124). -/
abbrev RingLaw (s : State) : Prop :=
  ∀ c, (s.ring c).state = .unconfigured →
    (s.ring c).notifyPending = false ∧ (s.ring c).ageTimer = none ∧ (s.ring c).size = 0 ∧ (s.ring c).head = 0
      ∧ (s.ring c).tail = 0 ∧ (s.ring c).unannounced = 0

/-- A configured completion ring has its size and both indices inside it (R113, R147, R160), and so has the admin ring while the engine
runs or stops (R129, R160). -/
abbrev RingIndexLaw (s : State) : Prop :=
  (∀ c, (s.ring c).state ≠ .unconfigured →
    16 ≤ (s.ring c).size ∧ (s.ring c).size ≤ 4096 ∧ (s.ring c).head < (s.ring c).size ∧ (s.ring c).tail < (s.ring c).size)
  ∧ (s.engine = .running ∨ s.engine = .stopping →
      8 ≤ s.adminRing.size ∧ s.adminRing.size ≤ 256 ∧ s.adminRing.head < s.adminRing.size ∧ s.adminRing.tail < s.adminRing.size)

/-! ## What is due, and the time in reset (R109, R132, R180; logs 5, 6, 13) -/

/-- The verdict on a checked record is that of the state as it stands, so nothing has come between (R132); a claim is deferred only
while the engine is RUNNING and the mover has no context (R31); and while RESET_N is low every block holds its power-on values
(R167, R180). -/
abbrev DueLaw (s : State) : Prop :=
  (∀ b v, s.admin = .executing b (.checked v) → v = adminCheck s b ∧ s.claimDeferred = false)
  ∧ (s.claimDeferred = true → s.engine = .running ∧ s.active = none)
  ∧ (s.heldEvents ≠ 0 →
      { s with pending := [], heldEvents := 0, resetTurn := 0, claimTurn := 0 } = State.reset)

end Sys2Proof.Machine
end

