-- ==== Sys2Proof/Certificates/Slice0/Obligations.lean ====
section
/-! DEFINITION. The statements for the provers: what each command of the GW-417 does, the laws its state keeps, and the rules of
its single operations. Each docstring names the rules of spec/ the statement formalises; "log n" marks what is the model's. -/

open Sys2Proof Sys2Proof.Machine

/-! ## The command queue -/

/-- The step takes the command at the front of the queue and executes it with the queue's rest; the model's own frame for the
events of 95_what_each_step_holds. On an empty queue it does what is due and idles, and with nothing due it changes nothing (logs
2, 5, 6, 20). -/
def Obligations.StepRunsTheFrontCommand : Prop :=
  (∀ (c : Instr) (s : State) (rest : List Instr), s.pending = c :: rest → step s = exec c { s with pending := rest })
  ∧ (∀ s : State, s.pending = [] → step s = .next (settleDue s))
  ∧ ∀ s : State, s.pending = [] → NothingDue s → step s = .next s

/-- Every command in every state answers a next state, never a fault or a refusal, and leaves the commands that wait alone (log
17 for the resets). -/
def Obligations.EveryCommandAnswersAndKeepsTheQueue : Prop :=
  ∀ (c : Instr) (s : State), ∃ t, exec c s = .next t ∧ t.pending = s.pending

/-! ## Resets -/

/-- POWER_ON_RESET leaves every block at its power-on values (R167, R105, R45, R51, R88, R113, R126, R128, R129, R171); the commands
that wait and the model's counts of its free values stay (logs 6, 13, 17). RESET_N is then low for a free number of accesses and
responses: each is not taken and changes nothing, a read answers 0, and the notification line is released (R180; log 13, and log 12
for the answer's place). -/
def Obligations.PowerOnResetLeavesPowerOnValues : Prop :=
  (∀ s : State, ∃ t, exec .powerOnReset s = .next t ∧ t.pending = s.pending
    ∧ t.engine = .stopped ∧ t.run = false ∧ t.notifyEnable = false ∧ t.rootLo = 0 ∧ t.rootHi = 0
    ∧ t.flags = ⟨false, false, false, false⟩ ∧ t.rootInUse = 0 ∧ t.cause = .none ∧ t.rootRead = .none
    ∧ t.requestTimeout = 1000 ∧ t.stopGrace = 20 ∧ t.graceTimer = .stopped ∧ t.counters = ⟨0, 0, 0, 0, 0, 0⟩
    ∧ (∀ g, t.tag g = .free)
    ∧ (∀ q, (t.queue q).state = .disabled ∧ (t.queue q).ringSize = 0 ∧ (t.queue q).ringBase = 0 ∧ (t.queue q).level = 0
        ∧ (t.queue q).ring = none ∧ (t.queue q).policy = .halt ∧ (t.queue q).head = 0 ∧ (t.queue q).tail = 0
        ∧ (t.queue q).drain = false ∧ (t.queue q).abortPending = false ∧ (t.queue q).haltCause = .none
        ∧ (t.queue q).hold = false ∧ (t.queue q).slot = .empty ∧ (t.queue q).endedOk = 0 ∧ (t.queue q).endedFault = 0
        ∧ (t.queue q).endedAborted = 0 ∧ (t.queue q).timesSuspended = 0 ∧ (t.queue q).discarded = 0)
    ∧ t.fetch = none ∧ t.segment = none ∧ t.active = none ∧ t.stack = [] ∧ t.currentLevel = 0
    ∧ t.startOrder = [0, 1, 2, 3, 4, 5, 6, 7]
    ∧ (∀ a, (t.aperture a).valid = false) ∧ t.waitingUpdate = none
    ∧ t.reserved = [] ∧ t.occupied = []
    ∧ (∀ c, (t.ring c).state = .unconfigured ∧ (t.ring c).base = 0 ∧ (t.ring c).size = 0 ∧ (t.ring c).head = 0
        ∧ (t.ring c).tail = 0 ∧ (t.ring c).phase = false ∧ (t.ring c).threshold = 0 ∧ (t.ring c).ageLimit = 0
        ∧ (t.ring c).notifyPending = false ∧ (t.ring c).unannounced = 0 ∧ (t.ring c).ageTimer = none
        ∧ (t.ring c).written = 0 ∧ (t.ring c).discarded = 0)
    ∧ t.admin = .idle ∧ t.adminRing = ⟨0, 0, 0, 0⟩
    ∧ statusWord t = 0 ∧ notifyAsserted t = false
    ∧ t.heldEvents = Config.eventsWhileLow s.resetTurn ∧ t.resetTurn = s.resetTurn + 1)
  ∧ ∀ (n : Nat) (s : State), s.heldEvents = n + 1 → NothingDue s →
      notifyAsserted s = false ∧ (∀ a, readRegister s a = 0)
      ∧ (∀ a, a.isWrite = false → exec (.misusedAccess a) s = .next { s with heldEvents := n, readData := 0 })
      ∧ (∀ a, a.isWrite = true → exec (.misusedAccess a) s = .next { s with heldEvents := n })
      ∧ ∀ i, (∃ v : Reg, i = .softReset v ∨ i = .runWritten1 v ∨ i = .runWritten0 v ∨ i = .notifyEnable v ∨ i = .flagsClear v
                ∨ (∃ offset, i = .registerWrite offset v) ∨ i = .postWork v ∨ i = .postAdmin v ∨ i = .cqAck v)
              ∨ (∃ (v : BitVec 8) (r : Result), (∃ a, i = .dataOrAckResponse v a) ∨ i = .errorResponse v
                  ∨ i = .lateResponse v r ∨ i = .strayResponse v r) →
          exec i s = .next { s with heldEvents := n }

/-- SOFT_RESET: IN_USE tags become STALE, STALE and FREE tags stay, ROOT_LO and ROOT_HI are kept, and everything else has its
power-on value (R166, R104, R72, R126). The model's records of port traffic, its counts of its free values and the waiting commands
stay (logs 6, 11, 12, 13, 17). -/
def Obligations.SoftResetKeepsTheTagPoolAndTheRootRegisters : Prop :=
  ∀ (v : Reg) (s : State), Ready s → v.getLsbD 2 = true → ∃ t, exec (.softReset v) s = .next t
    ∧ (∀ g, t.tag g = match s.tag g with | .free => .free | _ => .stale)
    ∧ t.rootLo = s.rootLo ∧ t.rootHi = s.rootHi
    ∧ { t with tags := State.reset.tags, rootLo := 0, rootHi := 0, pending := [], sent := [], readData := 0
               claimTurn := 0, resetTurn := 0 } = State.reset
    ∧ t.pending = s.pending ∧ t.sent = s.sent ∧ t.readData = s.readData ∧ t.claimTurn = s.claimTurn
    ∧ t.resetTurn = s.resetTurn

/-! ## CONTROL -/

/-- RUN written 1: from STOPPED the start begins with the root address in ROOT_HI and ROOT_LO, or fails at once when that
address is not aligned to 64 or not below 2^48; in STARTING, STOPPING and FAILED it is only recorded (R155, R156, R158). -/
def Obligations.RunWrittenOneStartsAStoppedEngine : Prop :=
  ∀ (v : Reg) (s : State), Ready s → v.getLsbD 0 = true → v.getLsbD 2 = false → s.run = false →
    (s.engine = .stopped → (s.rootHi ++ s.rootLo).toNat % 64 = 0 → (s.rootHi ++ s.rootLo).toNat < 2 ^ 48 →
      ∃ t, exec (.runWritten1 v) s = .next t
        ∧ AfterGrants { s with run := true, notifyEnable := v.getLsbD 1, engine := .starting, cause := .none,
                               rootInUse := s.rootHi ++ s.rootLo, rootRead := .waiting } t)
    ∧ (s.engine = .stopped →
        (s.rootHi ++ s.rootLo).toNat % 64 ≠ 0 ∨ 2 ^ 48 ≤ (s.rootHi ++ s.rootLo).toNat →
      ∃ t, exec (.runWritten1 v) s = .next t
        ∧ AfterGrants { s with run := true, notifyEnable := v.getLsbD 1, engine := .failed, cause := .rootInvalid,
                               rootInUse := s.rootHi ++ s.rootLo } t)
    ∧ (s.engine = .starting ∨ s.engine = .stopping ∨ s.engine = .failed →
        exec (.runWritten1 v) s = .next { s with run := true, notifyEnable := v.getLsbD 1 })

/-- RUN written 0 while RUNNING: the engine enters STOPPING; every stacked context ends STOPPED with its bytes done, top first, each
with its entry and, where a drain was requested, its BY_STOP notice; then every slot is emptied, with a fetch that waits withdrawn
and its reservation free, and every IDLE or HALTED queue is DISABLED; the stop then goes on as far as it can, which starts the
grace timer once the units are idle. No context is stacked, every slot is EMPTY or holds a cancelled fetch, no queue is IDLE or
HALTED, and the active context, the current level, the start order, the aperture table and every ring field of the queues stay
(R33, R34, R46, R71, R156, R163, R164). -/
def Obligations.RunWrittenZeroBeginsTheStop : Prop :=
  ∀ (v : Reg) (s : State), Ready s → v.getLsbD 0 = false → v.getLsbD 2 = false → s.run = true → s.engine = .running →
    let entered : State := { s with run := false, notifyEnable := v.getLsbD 1, engine := .stopping, stack := [] }
    let unstacked := s.stack.foldl (fun x c => withEnd c .stopped .none c.done 0 false x) entered
    let quieted (x : State) (q : WqId) : State :=
      let e := emptySlot q x
      if (e.queue q).state = .idle ∨ (e.queue q).state = .halted then
        e.setQueue q { e.queue q with state := .disabled, haltCause := .none }
      else e
    ∃ t, exec (.runWritten0 v) s = .next t ∧ EndsAs (allQueues.foldl quieted unstacked) t
      ∧ t.run = false ∧ t.notifyEnable = v.getLsbD 1
      ∧ (t.engine = .stopping ∨ t.engine = .stopped)
      ∧ t.stack = [] ∧ t.active = s.active ∧ t.currentLevel = s.currentLevel ∧ t.startOrder = s.startOrder
      ∧ t.segment.map Segment.unissued = s.segment.map Segment.unissued
      ∧ t.apertures = s.apertures ∧ t.waitingUpdate = s.waitingUpdate
      ∧ t.rootLo = s.rootLo ∧ t.rootHi = s.rootHi ∧ t.flags = s.flags
      ∧ t.requestTimeout = s.requestTimeout ∧ t.stopGrace = s.stopGrace
      ∧ ∀ q, (t.queue q).state ≠ .idle ∧ (t.queue q).state ≠ .halted
          ∧ ((t.queue q).slot = .empty ∨ (t.queue q).slot = .filling true)
          ∧ (t.queue q).ringBase = (s.queue q).ringBase ∧ (t.queue q).ringSize = (s.queue q).ringSize
          ∧ (t.queue q).level = (s.queue q).level ∧ (t.queue q).ring = (s.queue q).ring
          ∧ (t.queue q).policy = (s.queue q).policy ∧ (t.queue q).head = (s.queue q).head
          ∧ (t.queue q).tail = (s.queue q).tail

/-- RUN written 0 outside RUNNING: FAILED becomes STOPPED with its cause kept, a root read that waits for a tag is withdrawn and
the engine is STOPPED with cause NONE, and otherwise the write is only recorded (R156, R158, R162). -/
def Obligations.RunWrittenZeroOutsideRunning : Prop :=
  ∀ (v : Reg) (s : State), Ready s → v.getLsbD 0 = false → v.getLsbD 2 = false → s.run = true →
    (s.engine = .failed →
      exec (.runWritten0 v) s = .next { s with run := false, notifyEnable := v.getLsbD 1, engine := .stopped })
    ∧ (s.engine = .starting → s.rootRead = .waiting →
      exec (.runWritten0 v) s = .next { s with run := false, notifyEnable := v.getLsbD 1, engine := .stopped, cause := .none,
                                               rootRead := .none })
    ∧ (s.engine = .starting → s.rootRead = .issued →
      exec (.runWritten0 v) s = .next { s with run := false, notifyEnable := v.getLsbD 1 })
    ∧ (s.engine = .stopping →
      exec (.runWritten0 v) s = .next { s with run := false, notifyEnable := v.getLsbD 1 })

/-- A write of CONTROL that leaves RUN as it is changes NOTIFY_ENABLE and nothing else, and a read returns RUN and NOTIFY_ENABLE
as last written and every other bit 0 (R155, R179). -/
def Obligations.NotifyEnableIsWritten : Prop :=
  ∀ (v : Reg) (s : State), Ready s → v.getLsbD 2 = false → v.getLsbD 0 = s.run →
    ∃ t, exec (.notifyEnable v) s = .next t ∧ t = { s with notifyEnable := v.getLsbD 1 }
      ∧ readRegister t ⟨false, 4, 0x04, 0⟩ = v &&& 3#32

/-- The notification line is asserted while RESET_N is high, NOTIFY_ENABLE is 1 and a ring has notify pending set or is BROKEN, or the
admin unit is HALTED, or the engine is FAILED (R123, R180); and, when no UNCONFIGURED ring has notify pending set, exactly when
RESET_N is high, NOTIFY_ENABLE is 1 and one of the indications in bits 6 to 15 of STATUS reads 1 (R124, R168). A read of STATUS shows the
engine state in bits 2 to 0, the failure cause in bits 5 and 4, the failed and admin-halted indications in bits 6 and 7, the pending
and broken indication of CQc in bits 8 + c and 12 + c, and 0 in every other bit (R168, R178, R179). -/
def Obligations.NotificationLineFollowsItsConditions : Prop :=
  (∀ s : State, notifyAsserted s = true ↔
    s.heldEvents = 0 ∧ s.notifyEnable = true ∧ ((∃ c, (s.ring c).notifyPending = true) ∨ (∃ c, (s.ring c).state = .broken)
      ∨ (∃ i, s.admin = .halted i) ∨ s.engine = .failed))
  ∧ (∀ s : State, RingLaw s →
      (notifyAsserted s = true ↔ s.heldEvents = 0 ∧ s.notifyEnable = true
        ∧ ∃ k, 6 ≤ k ∧ k ≤ 15 ∧ (readRegister s ⟨false, 4, 0x08, 0⟩).getLsbD k = true))
  ∧ ∀ s : State, s.heldEvents = 0 →
      let status := readRegister s ⟨false, 4, 0x08, 0⟩
      (status.extractLsb' 0 3).toNat
          = (match s.engine with | .stopped => 0 | .starting => 1 | .running => 2 | .stopping => 3 | .failed => 4)
      ∧ (status.extractLsb' 4 2).toNat = (match s.cause with | .none => 0 | .rootRead => 1 | .rootInvalid => 2)
      ∧ (status.getLsbD 6 = true ↔ s.engine = .failed)
      ∧ (status.getLsbD 7 = true ↔ ∃ i, s.admin = .halted i)
      ∧ (∀ c : CqId, (status.getLsbD (8 + c.val) = true ↔ (s.ring c).state ≠ .unconfigured ∧ (s.ring c).notifyPending = true)
          ∧ (status.getLsbD (12 + c.val) = true ↔ (s.ring c).state = .broken))
      ∧ ∀ k, k = 3 ∨ 16 ≤ k → status.getLsbD k = false

/-! ## The other registers -/

/-- A write of FLAGS clears the flags whose position is written 1 and leaves the others (R169). A read shows POST_REJECT in bit 0,
ACK_REJECT in bit 1, STRAY in bit 2, BAD_ACCESS in bit 3, and 0 in every other bit (R178, R179). -/
def Obligations.FlagsWriteClearsWhereOne : Prop :=
  (∀ (v : Reg) (s : State), Ready s → ∃ t, exec (.flagsClear v) s = .next t
    ∧ t = { s with flags := t.flags }
    ∧ readRegister t ⟨false, 4, 0x0C, 0⟩ = readRegister s ⟨false, 4, 0x0C, 0⟩ &&& ~~~v)
  ∧ ∀ s : State, s.heldEvents = 0 →
      let flags := readRegister s ⟨false, 4, 0x0C, 0⟩
      flags.getLsbD 0 = s.flags.postReject ∧ flags.getLsbD 1 = s.flags.ackReject ∧ flags.getLsbD 2 = s.flags.stray
      ∧ flags.getLsbD 3 = s.flags.badAccess ∧ ∀ k, 4 ≤ k → flags.getLsbD k = false

/-- ROOT_LO and ROOT_HI hold what is written to them, every bit, and read it back; writes of ID and STATUS change nothing; ID reads
0x04170101 in every state, and POST and CQ_ACK read 0 (R157, R170, R178, R179). -/
def Obligations.RootRegistersHoldWhatIsWritten : Prop :=
  ∀ (v : Reg) (s : State), Ready s →
    (exec (.registerWrite 0x10 v) s = .next { s with rootLo := v }
      ∧ readRegister { s with rootLo := v } ⟨false, 4, 0x10, 0⟩ = v)
    ∧ (exec (.registerWrite 0x14 v) s = .next { s with rootHi := v }
      ∧ readRegister { s with rootHi := v } ⟨false, 4, 0x14, 0⟩ = v)
    ∧ exec (.registerWrite 0x00 v) s = .next s ∧ exec (.registerWrite 0x08 v) s = .next s
    ∧ readRegister s ⟨false, 4, 0x00, 0⟩ = 0x04170101#32
    ∧ readRegister s ⟨false, 4, 0x18, 0⟩ = 0 ∧ readRegister s ⟨false, 4, 0x1C, 0⟩ = 0

/-- An access that is not an aligned 32-bit access to one of the eight registers: a write does nothing but set FLAGS.BAD_ACCESS,
a read answers 0 and sets it (R170; the answer's place in the state is the model's, log 12). -/
def Obligations.MisusedAccessOnlySetsItsFlag : Prop :=
  ∀ (a : Access) (s : State), Ready s → a.bytes ≠ 4 ∨ a.offset % 4 ≠ 0 ∨ 32 ≤ a.offset →
    (a.isWrite = true →
      exec (.misusedAccess a) s = .next { s with flags := { s.flags with badAccess := true } })
    ∧ (a.isWrite = false →
      exec (.misusedAccess a) s = .next { s with flags := { s.flags with badAccess := true }, readData := 0 })

/-! ## POST and CQ_ACK -/

/-- A POST. With a reserved bit set or a queue number above 8 it is rejected at once. For a work queue it is checked against the
queue's ring and head, whatever the queue's state; for queue 0 it passes only while the engine is RUNNING and its tail fits the
admin ring. One that passes sets the tail, and for queue 0 ends a halt; any other is counted and sets FLAGS.POST_REJECT (R52,
R53, R54, R130, R134, R179). -/
def Obligations.PostIsCheckedByItsQueue : Prop :=
  ∀ (n r : BitVec 8) (new : BitVec 16) (s : State), Ready s →
    let v := n ++ r ++ new
    let rejected : State :=
      { s with counters := { s.counters with rejectedPosts := min (s.counters.rejectedPosts + 1) 4294967295 },
               flags := { s.flags with postReject := true } }
    let fits (size head tail : Nat) : Prop :=
      new.toNat < size ∧ ((tail : Int) - head) % size ≤ ((new.toNat : Int) - head) % size
    (r ≠ 0 ∨ 8 < n.toNat → exec (.postWork v) s = .next rejected ∧ exec (.postAdmin v) s = .next rejected)
    ∧ (∀ q : WqId, n.toNat = q.val + 1 → r = 0 →
        ((s.queue q).ringSize = 0 → exec (.postWork v) s = .next rejected)
        ∧ ((s.queue q).head < (s.queue q).ringSize → (s.queue q).tail < (s.queue q).ringSize →
            (fits (s.queue q).ringSize (s.queue q).head (s.queue q).tail →
              exec (.postWork v) s = .next (s.setQueue q { s.queue q with tail := new.toNat }))
            ∧ (¬ fits (s.queue q).ringSize (s.queue q).head (s.queue q).tail → exec (.postWork v) s = .next rejected)))
    ∧ (n = 0 → r = 0 →
        (s.engine ≠ .running → exec (.postAdmin v) s = .next rejected)
        ∧ (s.engine = .running → s.adminRing.head < s.adminRing.size → s.adminRing.tail < s.adminRing.size →
            (fits s.adminRing.size s.adminRing.head s.adminRing.tail →
              exec (.postAdmin v) s = .next { s with adminRing := { s.adminRing with tail := new.toNat },
                                                     admin := match s.admin with | .halted _ => .idle | a => a })
            ∧ (¬ fits s.adminRing.size s.adminRing.head s.adminRing.tail → exec (.postAdmin v) s = .next rejected)))

/-- A CQ_ACK is accepted exactly when its ring is configured and its head lies in ring order from the ring's head up to its
tail; it then sets the head, clears notify pending and the unannounced count and stops the age timer, after which a write the
ring was waiting to issue may go out; otherwise it is rejected (R116, R117, R182). -/
def Obligations.CompletionAckIsChecked : Prop :=
  ∀ (n r : BitVec 8) (new : BitVec 16) (s : State), Ready s →
    let rejected : State :=
      { s with counters := { s.counters with rejectedAcks := min (s.counters.rejectedAcks + 1) 4294967295 },
               flags := { s.flags with ackReject := true } }
    (r ≠ 0 ∨ 3 < n.toNat → exec (.cqAck (n ++ r ++ new)) s = .next rejected)
    ∧ ∀ c : CqId, n.toNat = c.val → r = 0 →
        ((s.ring c).state = .unconfigured → exec (.cqAck (n ++ r ++ new)) s = .next rejected)
        ∧ ((s.ring c).state ≠ .unconfigured → (s.ring c).head < (s.ring c).size → (s.ring c).tail < (s.ring c).size →
            if new.toNat < (s.ring c).size
                ∧ ((new.toNat : Int) - (s.ring c).head) % (s.ring c).size
                    ≤ (((s.ring c).tail : Int) - (s.ring c).head) % (s.ring c).size
            then ∃ t, exec (.cqAck (n ++ r ++ new)) s = .next t
              ∧ AfterGrants (s.setRing c { s.ring c with head := new.toNat, notifyPending := false, unannounced := 0,
                                                         ageTimer := none }) t
            else exec (.cqAck (n ++ r ++ new)) s = .next rejected)

/-! ## The admin unit's commands -/

/-- An admin record that failed a check of R135 changes nothing but its completion, whatever its row: the status and sub-status are
those of the first check that failed, the detail is 0 (R135, R136); on a BROKEN CQ0 the completion is discarded and counted, and
the freed entry claimed (R109, R110; log 6). Each row's checks are spelled out with its command. The record's common fields are the
opcode at offset 0, the target index at 1, the options at 2 and the tag at 4 (R174). That the completion is the step of the command's
row is log 5. -/
def Obligations.AdminRefusalIsOnlyACompletion : Prop :=
  (∀ b : List Byte, adminOpcode b = field b 0 1 ∧ adminIndex b = field b 1 1 ∧ adminOptions b = field b 2 2
    ∧ adminTag b = field b 4 2)
  ∧ ∀ (b : List Byte) (st : Status) (sub : Sub) (s : State), s.admin = .executing b (.checked (some (st, sub))) →
    ∃ t, exec (commandOf (adminOpcode b)) s = .next t ∧ EndsAs (selectOnFree s (withCompletion s b st sub 0)) t
      ∧ ((s.ring 0).state ≠ .broken → EndsAs (withCompletion s b st sub 0) t)

/-- A record whose opcode is 0 or above 12 fails check 1 and completes UNKNOWN (R135, R174), a MARK that passes its checks completes
OK (R153), both with detail 0 and no other effect; on a BROKEN CQ0 either completion is discarded and counted, and the freed entry
claimed (R109, R110, R136; log 6). That the completion is the step of the command's row is log 5. -/
def Obligations.UnknownOpcodeAndMarkOnlyComplete : Prop :=
  (∀ (b : List Byte) (s : State), adminOpcode b = 0 ∨ 12 < adminOpcode b → adminCheck s b = some (.unknown, .none))
  ∧ (∀ (b : List Byte) (s : State), adminOpcode b = 12 →
      adminCheck s b = verdictOf (someByte b 6 64 ∨ adminIndex b ≠ 0 ∨ field b 2 2 ≠ 0) False False none)
  ∧ ∀ (b : List Byte) (s : State), s.admin = .executing b (.checked (adminCheck s b)) →
      let lost : State :=
        { s.setRing 0 { s.ring 0 with discarded := min ((s.ring 0).discarded + 1) 4294967295 } with
          reserved := removeHolder .adminRecord s.reserved, admin := .idle }
      ((adminOpcode b = 0 ∨ 12 < adminOpcode b) →
        ((s.ring 0).state ≠ .broken →
          ∃ t, exec .unknownOpcode s = .next t ∧ EndsAs (withCompletion s b .unknown .none 0) t)
        ∧ ((s.ring 0).state = .broken → ∃ t, exec .unknownOpcode s = .next t ∧ EndsAs (selectOnFree s lost) t))
      ∧ (adminOpcode b = 12 → recordOk b = true →
        ((s.ring 0).state ≠ .broken → ∃ t, exec .mark s = .next t ∧ EndsAs (withCompletion s b .ok .none 0) t)
        ∧ ((s.ring 0).state = .broken → ∃ t, exec .mark s = .next t ∧ EndsAs (selectOnFree s lost) t))

/-- SET ENGINE is checked in R135's order against R138's and R174's conditions; one that passes replaces both settings and completes
OK with the old ones in its detail (R135, R138, R174). On a BROKEN CQ0 the completion is discarded and counted, and the freed entry
claimed (R31, R109, R110; log 6). That it is carried out in the step of its row is log 5. -/
def Obligations.SetEngineReplacesTheSettings : Prop :=
  (∀ (b : List Byte) (s : State), adminOpcode b = 0x01 →
    adminCheck s b =
      verdictOf (someByte b 6 8 ∨ someByte b 16 64 ∨ adminIndex b ≠ 0 ∨ field b 2 2 ≠ 0) False
        (¬ (1 ≤ field b 8 4 ∧ field b 8 4 ≤ 65535 ∧ 1 ≤ field b 12 4 ∧ field b 12 4 ≤ 255)) none)
  ∧ ∀ (b : List Byte) (s : State), Holds 0x01 b s →
    (1 ≤ field b 8 4 ∧ field b 8 4 ≤ 65535 ∧ 1 ≤ field b 12 4 ∧ field b 12 4 ≤ 255)
    ∧ ∃ t, exec .setEngine s = .next t
      ∧ EndsAs (selectOnFree s
          (withCompletion { s with requestTimeout := field b 8 4, stopGrace := field b 12 4 } b .ok .none
            (s.requestTimeout + 2 ^ 32 * s.stopGrace))) t

/-- CONFIGURE QUEUE is checked in R135's order against R139's and R174's conditions. On a DISABLED queue one that passes sets the
five parameters, head and tail 0 and the halt cause NONE, and nothing else of the queue; in any other state it completes BUSY (R135,
R139, R140, R174). On a BROKEN CQ0 the completion is discarded and counted, and the freed entry claimed (R31, R109, R110; log 6).
That it is carried out in the step of its row is log 5. -/
def Obligations.ConfigureQueueIsCheckedAndSetsTheQueue : Prop :=
  (∀ (b : List Byte) (s : State), adminOpcode b = 0x02 →
    adminCheck s b =
      verdictOf (someByte b 6 8 ∨ someByte b 21 64 ∨ field b 2 2 ≠ 0) (adminIndex b = 0 ∨ 8 < adminIndex b)
        (¬ (field b 8 8 % 4096 = 0 ∧ field b 8 8 + 64 * field b 16 2 ≤ 2 ^ 48
          ∧ (∃ k ∈ List.range 13, 3 ≤ k ∧ field b 16 2 = 2 ^ k)
          ∧ 1 ≤ field b 18 1 ∧ field b 18 1 ≤ 7 ∧ 1 ≤ field b 19 1 ∧ field b 19 1 ≤ 3 ∧ field b 20 1 ≤ 1))
        (if (s.queue (Fin.ofNat 8 (adminIndex b - 1))).state ≠ .disabled then some .busy else none))
  ∧ ∀ (b : List Byte) (q : WqId) (c : CqId) (s : State), Holds 0x02 b s → adminIndex b = q.val + 1 → field b 19 1 = c.val →
    ((s.queue q).state = .disabled →
      ∃ t, exec .configureQueue s = .next t
        ∧ EndsAs (selectOnFree s (withCompletion
            (s.setQueue q { s.queue q with
              ringBase := field b 8 8, ringSize := field b 16 2, level := field b 18 1, ring := some c
              policy := if field b 20 1 = 0 then .halt else .skip, head := 0, tail := 0, haltCause := .none })
            b .ok .none 0)) t)
    ∧ ((s.queue q).state ≠ .disabled →
      ∃ t, exec .configureQueue s = .next t ∧ EndsAs (selectOnFree s (withCompletion s b .busy .none 0)) t)

/-- ENABLE QUEUE is checked in R135's order against R174's conditions and R141's table; the first row of the table that holds
decides, and a queue that enters IDLE is an event for selection; where a BROKEN CQ0 makes the completion's entry free, that selection
is the claim of the freed entry, which another holder's may come before (R31, R109, R110, R135, R141, R174; log 6). That it is carried
out in the step of its row is log 5. -/
def Obligations.EnableQueueFollowsItsTable : Prop :=
  (∀ (b : List Byte) (s : State), adminOpcode b = 0x03 →
    let d := s.queue (Fin.ofNat 8 (adminIndex b - 1))
    adminCheck s b =
      verdictOf (someByte b 6 64 ∨ field b 2 2 ≠ 0) (adminIndex b = 0 ∨ 8 < adminIndex b) False
        (if d.ringSize = 0 then some .notReady
         else if d.state = .halted ∨ d.drain = true then some .busy
         else if d.state ≠ .disabled then none
         else if (∀ c, d.ring = some c → (s.ring c).state ≠ .active) ∨ s.engine = .stopping then some .notReady
         else none))
  ∧ ∀ (b : List Byte) (q : WqId) (s : State), Holds 0x03 b s → adminIndex b = q.val + 1 →
    let d := s.queue q
    (d.ringSize = 0 → ∃ t, exec .enableQueue s = .next t ∧ EndsAs (selectOnFree s (withCompletion s b .notReady .none 0)) t)
    ∧ (d.ringSize ≠ 0 → d.state = .halted ∨ d.drain = true →
        ∃ t, exec .enableQueue s = .next t ∧ EndsAs (selectOnFree s (withCompletion s b .busy .none 0)) t)
    ∧ (d.ringSize ≠ 0 → d.drain = false → d.state = .idle ∨ d.state = .running ∨ d.state = .suspended →
        ∃ t, exec .enableQueue s = .next t ∧ EndsAs (selectOnFree s (withCompletion s b .ok .unchanged 0)) t)
    ∧ (d.ringSize ≠ 0 → d.drain = false → d.state = .disabled →
        (∀ c, d.ring = some c → (s.ring c).state ≠ .active) ∨ s.engine = .stopping →
        ∃ t, exec .enableQueue s = .next t ∧ EndsAs (selectOnFree s (withCompletion s b .notReady .none 0)) t)
    ∧ ∀ c, d.ringSize ≠ 0 → d.drain = false → d.state = .disabled → d.ring = some c → (s.ring c).state = .active →
        s.engine ≠ .stopping →
        let base := withCompletion (s.setQueue q { d with state := .idle }) b .ok .none 0
        ∃ t, exec .enableQueue s = .next t
          ∧ EndsAs (if freeEntries s < freeEntries base then claimFreed base else selectOnFree s (select base)) t

/-- DISABLE QUEUE is checked in R135's order against R174's conditions. Applied at once or after its wait: a DISABLED queue stays as
it is, an IDLE or HALTED queue has its slot emptied and becomes DISABLED with halt cause NONE; the completion is OK, IMMEDIATE, and
an entry that becomes free is claimed (R31, R109, R135, R142, R143, R174; log 6, and log 24 for the completion before what the claim
starts). That it is carried out in the step of its row is log 5. -/
def Obligations.DisableQueueActsAtOnceOutsideAContext : Prop :=
  (∀ (b : List Byte) (s : State), adminOpcode b = 0x04 →
    adminCheck s b = verdictOf (someByte b 6 64 ∨ field b 2 2 ≠ 0) (adminIndex b = 0 ∨ 8 < adminIndex b) False none)
  ∧ ∀ (i : Instr) (b : List Byte) (q : WqId) (s : State),
    (i = .disableQueue ∧ Holds 0x04 b s ∧ adminIndex b = q.val + 1)
      ∨ (i = .disableQueueApplied ∧ s.admin = .executing b (.waitEntry q)) →
    ((s.queue q).state = .disabled →
      ∃ t, exec i s = .next t ∧ EndsAs (afterClaims i s (withCompletion s b .ok .immediate 0)) t)
    ∧ ((s.queue q).state = .idle ∨ (s.queue q).state = .halted →
      let e := emptySlot q s
      ∃ t, exec i s = .next t
        ∧ EndsAs (afterClaims i s
            (withCompletion (e.setQueue q { e.queue q with state := .disabled, haltCause := .none }) b .ok .immediate 0)) t)

/-- DISABLE QUEUE on a RUNNING or SUSPENDED queue: with a drain requested already, or in STOPPING, it only completes OK,
DEFERRED; with a free entry the entry is reserved for the drain, bound for CQ0, the drain is requested and the slot emptied;
with none the admin unit waits (R109, R143; log 6 for the claims of an entry that becomes free, log 24 for the completion before what
such a claim starts). That it is carried out in the step of its row is log 5. -/
def Obligations.DisableQueueRequestsTheDrain : Prop :=
  ∀ (i : Instr) (b : List Byte) (q : WqId) (s : State),
    (i = .disableQueue ∧ Holds 0x04 b s ∧ adminIndex b = q.val + 1)
      ∨ (i = .disableQueueApplied ∧ s.admin = .executing b (.waitEntry q)) →
    (s.queue q).state = .running ∨ (s.queue q).state = .suspended →
    ((s.queue q).drain = true ∨ s.engine = .stopping →
      ∃ t, exec i s = .next t ∧ EndsAs (afterClaims i s (withCompletion s b .ok .deferred 0)) t)
    ∧ ((s.queue q).drain = false → s.engine ≠ .stopping → 0 < freeEntries s →
      let r : State := { s with reserved := s.reserved ++ [⟨.drain q, 0⟩] }
      ∃ t, exec i s = .next t
        ∧ EndsAs (afterClaims i s
            (withCompletion (emptySlot q (r.setQueue q { s.queue q with drain := true })) b .ok .deferred 0)) t)
    ∧ ((s.queue q).drain = false → s.engine ≠ .stopping → freeEntries s = 0 →
      (i = .disableQueue → ∃ t, exec i s = .next t ∧ EndsAs { s with admin := .executing b (.waitEntry q) } t)
      ∧ (i = .disableQueueApplied →
          exec i s = .next (if s.claimDeferred then grantAll (select s) else s)))

/-- ABORT QUEUE is checked in R135's order against R174's conditions. Where the queue owns the active context it sets the
abort-pending flag and waits for the scheduler's report; where it owns none the slot is emptied, the posted records are discarded and
counted, the queue is DISABLED, and the completion is OK, NONE with their number (R43, R135, R144, R145, R174; log 6 for the claim of
an entry that becomes free, log 24 for the completion before what that claim starts). That it is carried out in the step of its row
is log 5. -/
def Obligations.AbortQueueWithoutAStackedContext : Prop :=
  (∀ (b : List Byte) (s : State), adminOpcode b = 0x05 →
    adminCheck s b = verdictOf (someByte b 6 64 ∨ field b 2 2 ≠ 0) (adminIndex b = 0 ∨ 8 < adminIndex b) False none)
  ∧ ∀ (b : List Byte) (q : WqId) (s : State), Holds 0x05 b s → adminIndex b = q.val + 1 →
    (∀ c, s.active = some c → c.queue = q →
      ∃ t, exec .abortQueue s = .next t
        ∧ EndsAs { s.setQueue q { s.queue q with abortPending := true } with admin := .executing b (.waitReport q) } t)
    ∧ ∀ n : Nat, (∀ c ∈ contexts s, c.queue ≠ q) →
        ((s.queue q).ringSize = 0 ∧ n = 0
          ∨ (s.queue q).head < (s.queue q).ringSize ∧ (s.queue q).tail < (s.queue q).ringSize
              ∧ (n : Int) = (((s.queue q).tail : Int) - (s.queue q).head) % (s.queue q).ringSize) →
        let e := emptySlot q s
        let base := withCompletion
          (e.setQueue q { e.queue q with head := (s.queue q).tail, state := .disabled, haltCause := .none
                                         discarded := min ((s.queue q).discarded + n) 4294967295 }) b .ok .none n
        ∃ t, exec .abortQueue s = .next t ∧ EndsAs (selectOnFree s base) t

/-- ABORT QUEUE where the queue owns a stacked context: the context leaves the stack and ends ABORTED with its bytes done, and
the others stay; its entry is placed on its ring, then the DRAINED notice on CQ0 if a drain was requested, then the completion
on CQ0, OK, STACKED with the number of records discarded; the queue is DISABLED with its flags cleared (R33, R34, R42, R109, R110,
R145; log 6 for the claim of an entry that becomes free, log 24 for the completion before what that claim starts). That it is carried
out in the step of its row is log 5. -/
def Obligations.AbortQueueEndsAStackedContext : Prop :=
  ∀ (b : List Byte) (q : WqId) (c : Context) (above below : List Context) (n : Nat) (s : State),
    Holds 0x05 b s → adminIndex b = q.val + 1 → c.queue = q → s.stack = above ++ c :: below →
    (∀ p ∈ above, p.queue ≠ q) → (∀ p ∈ s.active, p.queue ≠ q) →
    (s.queue q).head < (s.queue q).ringSize → (s.queue q).tail < (s.queue q).ringSize →
    (n : Int) = (((s.queue q).tail : Int) - (s.queue q).head) % (s.queue q).ringSize →
      let d := s.queue q
      let out : State := { s with stack := above ++ below, reserved := removeHolder (.context q) s.reserved }
      let told := withEntry c.ring ⟨.aborted, .none, q.val + 1, c.record.tag, (c.index + 1) % d.ringSize, c.done, 0⟩
        c.record.notifyNow out
      let left := told.setQueue q
        { d with state := .disabled, drain := false, abortPending := false, hold := false
                 endedAborted := min (d.endedAborted + 1) 4294967295 }
      let noted :=
        if d.drain then
          withEntry 0 ⟨.drained, .byAbort, q.val + 1, 0, d.head, 0, 0⟩ false
            { left with reserved := removeHolder (.drain q) left.reserved }
        else left
      let e := emptySlot q noted
      let base := withCompletion
        (e.setQueue q { e.queue q with head := d.tail, haltCause := .none
                                       discarded := min (d.discarded + n) 4294967295 }) b .ok .stacked n
      ∃ t, exec .abortQueue s = .next t ∧ EndsAs (selectOnFree s base) t

/-- RESUME QUEUE is checked in R135's order against R174's conditions and its state. On a HALTED queue it makes the queue IDLE with
halt cause NONE, and with SKIP_ONE after a FETCH halt moves the head past the unreadable record; the sub-status follows R146's table,
and a queue that enters IDLE is an event for selection; where a BROKEN CQ0 makes the completion's entry free, that selection is the
claim of the freed entry, which another holder's may come before; in any other state it completes BUSY (R31, R70, R109, R110, R135,
R146, R174; log 6). That it is carried out in the step of its row is log 5. -/
def Obligations.ResumeQueueEndsTheHalt : Prop :=
  (∀ (b : List Byte) (s : State), adminOpcode b = 0x06 →
    adminCheck s b =
      verdictOf (someByte b 6 64 ∨ 1 < field b 2 2) (adminIndex b = 0 ∨ 8 < adminIndex b) False
        (if (s.queue (Fin.ofNat 8 (adminIndex b - 1))).state ≠ .halted then some .busy else none))
  ∧ ∀ (b : List Byte) (q : WqId) (s : State), Holds 0x06 b s → adminIndex b = q.val + 1 →
    ((s.queue q).state = .halted →
      let d := s.queue q
      let skips : Prop := field b 2 2 % 2 = 1 ∧ d.haltCause = .fetch
      let base := withCompletion
        (s.setQueue q { d with state := .idle, haltCause := .none
                               head := if skips then (d.head + 1) % d.ringSize else d.head }) b .ok
        (if field b 2 2 % 2 = 0 then .none else if d.haltCause = .fetch then .skipped else .skipIgnored) 0
      ∃ t, exec .resumeQueue s = .next t
        ∧ EndsAs (if freeEntries s < freeEntries base then claimFreed base else selectOnFree s (select base)) t)
    ∧ ((s.queue q).state ≠ .halted →
      ∃ t, exec .resumeQueue s = .next t ∧ EndsAs (selectOnFree s (withCompletion s b .busy .none 0)) t)

/-- CONFIGURE CQ is checked in R135's order against R147's and R174's conditions. One that passes makes its ring ACTIVE with the
record's parameters, head and tail 0, phase 1, no notify pending, no unannounced entry and no age timer, and keeps its counts; while
a queue bound to the ring is not DISABLED, or a pending-list entry is bound for it, it completes BUSY (R135, R147, R148, R174). On a
BROKEN CQ0 the completion is discarded and counted, and the freed entry claimed (R31, R109, R110; log 6). That it is carried out in
the step of its row is log 5. -/
def Obligations.ConfigureCqMakesTheRingActive : Prop :=
  (∀ (b : List Byte) (s : State), adminOpcode b = 0x07 →
    let c : CqId := Fin.ofNat 4 (adminIndex b)
    adminCheck s b =
      verdictOf (someByte b 6 8 ∨ someByte b 24 64 ∨ field b 2 2 ≠ 0) (adminIndex b = 0 ∨ 3 < adminIndex b)
        (¬ (field b 8 8 % 4096 = 0 ∧ field b 8 8 + 32 * field b 16 2 ≤ 2 ^ 48
          ∧ (∃ k ∈ List.range 13, 4 ≤ k ∧ field b 16 2 = 2 ^ k)
          ∧ 1 ≤ field b 18 2 ∧ field b 18 2 ≤ 255 ∧ field b 20 4 ≤ 65535))
        (if (∃ q, (s.queue q).ring = some c ∧ (s.queue q).state ≠ .disabled)
            ∨ (∃ r ∈ s.reserved, r.ring = c) ∨ (∃ o ∈ s.occupied, o.ring = c) then some .busy else none))
  ∧ ∀ (b : List Byte) (c : CqId) (s : State), Holds 0x07 b s → adminIndex b = c.val →
    let busy : Prop :=
      (∃ q, (s.queue q).ring = some c ∧ (s.queue q).state ≠ .disabled)
      ∨ (∃ r ∈ s.reserved, r.ring = c) ∨ (∃ o ∈ s.occupied, o.ring = c)
    (busy → ∃ t, exec .configureCq s = .next t ∧ EndsAs (selectOnFree s (withCompletion s b .busy .none 0)) t)
    ∧ (¬ busy → ∃ t, exec .configureCq s = .next t
        ∧ EndsAs (selectOnFree s (withCompletion
            (s.setRing c { s.ring c with
              state := .active, base := field b 8 8, size := field b 16 2, threshold := field b 18 2
              ageLimit := field b 20 4, head := 0, tail := 0, phase := true, notifyPending := false, unannounced := 0
              ageTimer := none }) b .ok .none 0)) t)

/-- LOAD APERTURE and CLEAR APERTURE are checked in R135's order against R82's and R174's conditions. With no segment in flight the
entry is written, or made not valid, and the completion is OK; with one the update waits for its boundary, and the admin unit with
it (R82, R83, R85, R135, R149, R174). On a BROKEN CQ0 an immediate completion is discarded and counted, and the freed entry claimed
(R31, R109, R110; log 6). That they are carried out in the step of their row is log 5. -/
def Obligations.ApertureCommandsUpdateOrWait : Prop :=
  (∀ (b : List Byte) (s : State), adminOpcode b = 0x08 →
    adminCheck s b =
      verdictOf (someByte b 6 8 ∨ someByte b 12 16 ∨ someByte b 32 64 ∨ field b 2 2 ≠ 0 ∨ 4 ≤ field b 10 1) (15 < adminIndex b)
        (¬ (1 ≤ field b 8 1 ∧ field b 8 1 ≤ 3 ∧ 12 ≤ field b 9 1 ∧ field b 9 1 ≤ 47
          ∧ field b 16 8 < 2 ^ 48 ∧ field b 16 8 % 2 ^ field b 9 1 = 0
          ∧ (field b 8 1 = 2 → field b 24 8 < 2 ^ 48 ∧ field b 24 8 % 2 ^ field b 9 1 = 0)
          ∧ (field b 8 1 ≠ 2 → field b 24 8 = 0)
          ∧ (field b 8 1 = 3 → field b 10 1 = 0) ∧ field b 11 1 ≠ 0)) none)
  ∧ (∀ (b : List Byte) (s : State), adminOpcode b = 0x09 →
    adminCheck s b = verdictOf (someByte b 6 64 ∨ field b 2 2 ≠ 0) (15 < adminIndex b) False none)
  ∧ ∀ (b : List Byte) (i : ApId) (s : State), adminIndex b = i.val →
    (Holds 0x08 b s →
      let e : Aperture :=
        { valid := true
          kind := if field b 8 1 = 1 then .direct else if field b 8 1 = 2 then .translate else .deny
          exponent := field b 9 1, base := field b 16 8, target := field b 24 8
          read := field b 10 1 % 2 == 1, write := field b 10 1 / 2 % 2 == 1, queues := b.getD 11 0 }
      (s.segment = none → ∃ t, exec .loadAperture s = .next t
        ∧ EndsAs (selectOnFree s (withCompletion (s.setAperture i e) b .ok .none 0)) t)
      ∧ (s.segment ≠ none → ∃ t, exec .loadAperture s = .next t
        ∧ EndsAs { s with waitingUpdate := some ⟨i, some e⟩, admin := .executing b .waitUpdate } t))
    ∧ (Holds 0x09 b s →
      (s.segment = none → ∃ t, exec .clearAperture s = .next t
        ∧ EndsAs (selectOnFree s (withCompletion (s.setAperture i { s.aperture i with valid := false }) b .ok .none 0)) t)
      ∧ (s.segment ≠ none → ∃ t, exec .clearAperture s = .next t
        ∧ EndsAs { s with waitingUpdate := some ⟨i, none⟩, admin := .executing b .waitUpdate } t))

/-- READ STATISTICS is checked in R135's order against R150's and R174's conditions. It captures every counter into the 256-byte
block at R177's offsets, sets all 54 to 0 when CLEAR is present, and goes on to write the block as four WRITEs of 64 bytes (R135,
R150, R151, R174, R177). That it is carried out in the step of its row is log 5. -/
def Obligations.ReadStatisticsCapturesEveryCounter : Prop :=
  (∀ (b : List Byte) (s : State), adminOpcode b = 0x0A →
    adminCheck s b =
      verdictOf (someByte b 6 8 ∨ someByte b 16 64 ∨ adminIndex b ≠ 0 ∨ 1 < field b 2 2) False
        (¬ (field b 8 8 % 64 = 0 ∧ field b 8 8 + 256 ≤ 2 ^ 48)) none)
  ∧ ∀ (b : List Byte) (s : State), Holds 0x0A b s → CounterLaw s →
    ∃ block : List Byte, block.length = 256
      ∧ (∀ q : WqId, field block (20 * q.val) 4 = (s.queue q).endedOk ∧ field block (20 * q.val + 4) 4 = (s.queue q).endedFault
          ∧ field block (20 * q.val + 8) 4 = (s.queue q).endedAborted
          ∧ field block (20 * q.val + 12) 4 = (s.queue q).timesSuspended
          ∧ field block (20 * q.val + 16) 4 = (s.queue q).discarded)
      ∧ (∀ c : CqId, field block (160 + 8 * c.val) 4 = (s.ring c).written
          ∧ field block (160 + 8 * c.val + 4) 4 = (s.ring c).discarded)
      ∧ field block 192 4 = s.counters.requestTimeouts ∧ field block 196 4 = s.counters.lateResponses
      ∧ field block 200 4 = s.counters.strayResponses ∧ field block 204 4 = s.counters.rejectedPosts
      ∧ field block 208 4 = s.counters.rejectedAcks ∧ field block 212 4 = s.counters.droppedAtStop
      ∧ block.drop 216 = List.replicate 40 0
      ∧ ∃ t, exec .readStatistics s = .next t
        ∧ let kept : State :=
            if field b 2 2 % 2 = 0 then s
            else { s with
                   queues := s.queues.map fun d =>
                     { d with endedOk := 0, endedFault := 0, endedAborted := 0, timesSuspended := 0, discarded := 0 }
                   rings := s.rings.map fun r => { r with written := 0, discarded := 0 }
                   counters := ⟨0, 0, 0, 0, 0, 0⟩ }
          EndsAs { kept with
            admin := .executing b (.writing
              [⟨field b 8 8, block.take 64, .waiting⟩, ⟨field b 8 8 + 64, (block.drop 64).take 64, .waiting⟩,
               ⟨field b 8 8 + 128, (block.drop 128).take 64, .waiting⟩,
               ⟨field b 8 8 + 192, (block.drop 192).take 64, .waiting⟩] none) } t

/-- QUERY QUEUE is checked in R135's order against R152's and R174's conditions. It takes the queue's report, with its fields at
R177's offsets in R177's codes, and goes on to write its 64 bytes with one WRITE (R74, R135, R152, R174, R177). That it is
carried out in the step of its row is log 5. -/
def Obligations.QueryQueueTakesTheReport : Prop :=
  (∀ (b : List Byte) (s : State), adminOpcode b = 0x0B →
    adminCheck s b =
      verdictOf (someByte b 6 8 ∨ someByte b 16 64 ∨ field b 2 2 ≠ 0) (adminIndex b = 0 ∨ 8 < adminIndex b)
        (¬ (field b 8 8 % 64 = 0 ∧ field b 8 8 + 64 ≤ 2 ^ 48)) none)
  ∧ ∀ (b : List Byte) (q : WqId) (s : State), Holds 0x0B b s → adminIndex b = q.val + 1 →
    SchedulerLaw s → WorkRingLaw s →
    ∃ report : List Byte, report.length = 64
      ∧ field report 0 1 = q.val + 1 ∧ field report 1 1 = (match (s.queue q).state with
        | .disabled => 0 | .idle => 1 | .running => 2 | .suspended => 3 | .halted => 4)
      ∧ field report 2 1 = (s.queue q).level ∧ field report 3 1 = (match (s.queue q).ring with | none => 0 | some c => c.val)
      ∧ field report 4 1 = (if (s.queue q).policy = .halt then 0 else 1)
      ∧ field report 5 1 = (match (s.queue q).slot with
        | .empty => 0 | .filling cancelled => if cancelled then 2 else 1 | .full _ => 3)
      ∧ field report 6 1 = (if (s.queue q).drain then 1 else 0) + (if (s.queue q).hold then 2 else 0)
      ∧ field report 7 1 = (match (s.queue q).haltCause with | .none => 0 | .record => 1 | .fetch => 2)
      ∧ field report 8 2 = (s.queue q).ringSize ∧ field report 10 2 = (s.queue q).head
      ∧ field report 12 2 = (s.queue q).tail ∧ field report 14 2 = (s.queue q).posted
      ∧ ((∀ c ∈ contexts s, c.queue ≠ q) → (report.drop 16).take 12 = List.replicate 12 0)
      ∧ field report 18 2 = 0
      ∧ (∀ c, s.active = some c → c.queue = q →
          field report 16 1 = 1 ∧ field report 17 1 = 0 ∧ field report 20 2 = c.row % 65536
            ∧ field report 22 2 = c.offset % 65536 ∧ field report 24 4 = c.done % 4294967296)
      ∧ (∀ c above below, s.stack = above ++ c :: below → c.queue = q → (∀ p ∈ s.active, p.queue ≠ q) →
          (∀ p ∈ above, p.queue ≠ q) →
          field report 16 1 = 2 ∧ field report 17 1 = below.length + 1 ∧ field report 20 2 = c.row % 65536
            ∧ field report 22 2 = c.offset % 65536 ∧ field report 24 4 = c.done % 4294967296)
      ∧ report.drop 28 = List.replicate 36 0
      ∧ ∃ t, exec .queryQueue s = .next t
        ∧ EndsAs { s with admin := .executing b (.writing [⟨field b 8 8, report, .waiting⟩] none) } t

/-! ## The pending list and the staging slots -/

/-- The three cases of a placement, each with the holder's reservation gone (R4, R110), and the five rows of the emptying of a
slot (R59, R63). What becomes of an entry that has become free: the scheduler makes its claim by selection; where it would start a
record and another holder's condition is met too, the free value decides whether selection runs at once or its claim is deferred
(R31, R60, R109, R131, R143; log 6). -/
def Obligations.PlacementAndEmptyingFollowTheirTables : Prop :=
  (∀ (h : Holder) (l : List Reservation),
    ((removeHolder h l).map fun r => r.holder) = (l.map fun r => r.holder).erase h)
  ∧ (∀ (h : Holder) (c : CqId) (e : Entry) (suppressed now : Bool) (s : State),
      let released : State := { s with reserved := removeHolder h s.reserved }
      (suppressed = true → place h c e suppressed now s = released)
      ∧ (suppressed = false → (s.ring c).state = .broken →
          place h c e suppressed now s
            = released.setRing c { s.ring c with discarded := min ((s.ring c).discarded + 1) 4294967295 })
      ∧ (suppressed = false → (s.ring c).state ≠ .broken →
          place h c e suppressed now s = { released with occupied := s.occupied ++ [⟨c, e, now, false⟩] }))
  ∧ (∀ (q : WqId) (s : State),
      ((s.queue q).slot = .empty → emptySlot q s = s)
      ∧ (∀ b, (s.queue q).slot = .full b → emptySlot q s = s.setQueue q { s.queue q with slot := .empty })
      ∧ (∀ i c, (s.queue q).slot = .filling false → s.fetch = some ⟨q, i, c, false⟩ →
          emptySlot q s = { s.setQueue q { s.queue q with slot := .empty } with
                            fetch := none, reserved := removeHolder .fetch s.reserved })
      ∧ (∀ i c, (s.queue q).slot = .filling false → s.fetch = some ⟨q, i, c, true⟩ →
          emptySlot q s = s.setQueue q { s.queue q with slot := .filling true })
      ∧ ((s.queue q).slot = .filling true → emptySlot q s = s))
  ∧ (∀ before s : State,
      (freeEntries s ≤ freeEntries before → selectOnFree before s = s)
      ∧ (freeEntries before < freeEntries s → selectOnFree before s = claimFreed s))
  ∧ ∀ s : State, WorkRingLaw s →
      let starts : Prop := s.engine = .running ∧ s.active = none ∧ ∃ q, choose s = .start q
      let rival : Prop :=
        (s.engine = .running ∧ s.admin = .idle ∧ 0 < s.adminRing.posted ∧ 0 < freeEntries s)
        ∨ (s.engine = .running ∧ s.fetch = none ∧ 0 < freeEntries s ∧ ∃ p,
            ((s.queue p).state = .idle ∨ (s.queue p).state = .running ∨ (s.queue p).state = .suspended)
            ∧ (s.queue p).drain = false ∧ (s.queue p).abortPending = false ∧ (s.queue p).hold = false
            ∧ (s.queue p).slot = .empty ∧ (s.queue p).head ≠ (s.queue p).tail)
        ∨ (∃ b p, s.admin = .executing b (.waitEntry p)
            ∧ ((s.queue p).state = .running ∨ (s.queue p).state = .suspended) ∧ (s.queue p).drain = false)
      (¬ (starts ∧ rival) → claimFreed s = select s)
      ∧ (starts → rival → Config.schedulerClaimsFirst s.claimTurn = true →
          claimFreed s = select { s with claimTurn := s.claimTurn + 1 })
      ∧ (starts → rival → Config.schedulerClaimsFirst s.claimTurn = false →
          claimFreed s = { s with claimTurn := s.claimTurn + 1, claimDeferred := true })

/-! ## Commands whose event is not possible -/

/-- What comes before an event (R31, R109, R132, R135, R143; logs 5, 6, 20). A record that has been checked is completed or carried out
before any event but its own row. A DISABLE QUEUE that waits for an entry is applied before any event once it needs none: when its queue
has left RUNNING and SUSPENDED, and when the engine has entered STOPPING, so that it never waits across the start of a stop. A deferred
claim is made before any event but another holder's claim, which it may stand behind. The model's own choice (log 1): a command whose
event cannot occur in the state changes nothing but that. -/
def Obligations.ImpossibleEventsChangeNothing : Prop :=
  (∀ s : State, NothingDue (settleDue s) ∧ (NothingDue s → settleDue s = s)
    ∧ settleDue s = settleDeferred (settleLook (settleDeferred (settleRecord s)))
    ∧ settleDeferred s = (if s.claimDeferred then grantAll (select s) else s)
    ∧ ((∀ b q, s.admin ≠ .executing b (.waitEntry q)) → settleLook s = s)
    ∧ (∀ b q, s.admin = .executing b (.waitEntry q) →
        let needsNone : Prop :=
          ((s.queue q).state ≠ .running ∧ (s.queue q).state ≠ .suspended) ∨ (s.queue q).drain = true ∨ s.engine = .stopping
        (¬ needsNone → settleLook s = s)
        ∧ (needsNone → exec .disableQueueApplied s = .next (settleLook s) ∧ (settleLook s).admin = .idle))
    ∧ ((∀ b v, s.admin ≠ .executing b (.checked v)) → settleRecord s = s)
    ∧ (∀ b v, s.admin = .executing b (.checked v) → exec (commandOf (adminOpcode b)) s = .next (settleRecord s)))
  ∧ (∀ (i : Instr) (s : State),
      (i = .disableQueueApplied → exec i s = exec i (settleRecord s))
      ∧ (i = .takeUp ∨ i = .fetchIssue → exec i s = exec i (settleLook (settleRecord s)))
      ∧ (i ≠ .takeUp → i ≠ .fetchIssue → i ≠ .disableQueueApplied →
          (∀ b v, s.admin = .executing b (.checked v) → i ≠ commandOf (adminOpcode b)) → exec i s = exec i (settleDue s)))
  ∧ ∀ s : State, NothingDue s →
    (s.engine ≠ .running ∨ s.admin ≠ .idle ∨ s.adminRing.posted = 0 ∨ freeEntries s = 0 → exec .takeUp s = .next s)
    ∧ (s.fetch ≠ none ∨ freeEntries s = 0 ∨ s.engine ≠ .running → exec .fetchIssue s = .next s)
    ∧ (∀ g, (∀ o k ad n tm, s.tag g ≠ .inUse o k ad n tm) → exec (.requestTimeout g) s = .next s)
    ∧ (∀ c, (s.ring c).ageTimer = none → exec (.ageTimerExpiry c) s = .next s)
    ∧ ((∀ ms, s.graceTimer ≠ .running ms) → exec .stopGraceExpiry s = .next s)
    ∧ ((∀ b q, s.admin ≠ .executing b (.waitEntry q)) → exec .disableQueueApplied s = .next s)
    ∧ ∀ op, exec (commandOf op) s = .next s

/-! ## The units' claims -/

/-- A take-up with its conditions met reserves an entry for CQ0, enters FETCHING for the index at the head and asks for a tag
(R131, R109). A claim that the scheduler had deferred is then taken up again (R31, R109; log 6). That the take-up is a step of its own
is log 5. -/
def Obligations.TakeUpReservesAndFetches : Prop :=
  ∀ s : State, s.engine = .running → s.admin = .idle → s.adminRing.head < s.adminRing.size →
    s.adminRing.tail < s.adminRing.size → s.adminRing.head ≠ s.adminRing.tail → 0 < freeEntries s →
    let base : State := { s with reserved := s.reserved ++ [⟨.adminRecord, 0⟩], admin := .fetching s.adminRing.head false }
    (s.claimDeferred = false → ∃ t, exec .takeUp s = .next t ∧ AfterGrants base t)
    ∧ (s.claimDeferred = true →
        ∃ t, exec .takeUp s = .next t ∧ AfterGrants (claimFreed { base with claimDeferred := false }) t)

/-- The fetch unit chooses the candidate of highest level, of those the lowest number, reserves an entry for its ring, makes its
slot FILLING for the record at its head, becomes BUSY and asks for a tag (R60, R61, R109); with no candidate nothing happens. A claim
that the scheduler had deferred is then taken up again (R31, R109; log 6). That the issue is a step of its own is log 5. -/
def Obligations.FetchIssueServesTheHighestCandidate : Prop :=
  ∀ s : State, WorkRingLaw s → s.engine = .running → s.fetch = none → 0 < freeEntries s →
    (∀ b v, s.admin ≠ .executing b (.checked v)) →
    (∀ b q, s.admin = .executing b (.waitEntry q) →
      ((s.queue q).state = .running ∨ (s.queue q).state = .suspended) ∧ (s.queue q).drain = false) →
    let candidate (p : WqId) : Prop :=
      ((s.queue p).state = .idle ∨ (s.queue p).state = .running ∨ (s.queue p).state = .suspended)
      ∧ (s.queue p).drain = false ∧ (s.queue p).abortPending = false ∧ (s.queue p).hold = false
      ∧ (s.queue p).slot = .empty ∧ (s.queue p).head ≠ (s.queue p).tail
    (∀ (q : WqId) (c : CqId), candidate q → (s.queue q).ring = some c →
      (∀ p, candidate p → (s.queue p).level < (s.queue q).level ∨ ((s.queue p).level = (s.queue q).level ∧ q ≤ p)) →
      let base : State :=
        { s.setQueue q { s.queue q with slot := .filling false } with
          reserved := s.reserved ++ [⟨.fetch, c⟩], fetch := some ⟨q, (s.queue q).head, c, false⟩ }
      (s.claimDeferred = false → ∃ t, exec .fetchIssue s = .next t ∧ AfterGrants base t)
      ∧ (s.claimDeferred = true →
          ∃ t, exec .fetchIssue s = .next t ∧ AfterGrants (claimFreed { base with claimDeferred := false }) t))
    ∧ ((∀ p, ¬ candidate p) → exec .fetchIssue s = .next (if s.claimDeferred then grantAll (select s) else s))

/-! ## Granting tags -/

/-- While a tag is FREE, the first client that asks in the order completion unit, admin unit, fetch unit, mover is the one to be
served, the mover only with five tags FREE; and each client's request is the one its own rule names, the mover's the first that
waits in its segment and none in SETTLING, the completion unit's withdrawn when the stop grace has expired (R13, R14, R61, R93, R94,
R111, R112, R125, R131, R151, R158). The 32 bytes of an entry's write are R175's: the fields at their offsets, the phase in bit 0 of its
byte, zeros elsewhere, and the codes of the statuses and sub-statuses (R120, R172, R175). That asks are a function of the state is log 8,
and that R94's order holds among the asks of one step is log 23. -/
def Obligations.ClientsAskInTheFixedOrder : Prop :=
  (∀ (e : Entry) (phase : Bool),
    let b := entryBytes e phase
    b.length = 32 ∧ field b 0 1 = statusCode e.status ∧ field b 1 1 = subCode e.sub ∧ field b 2 1 = e.queue % 2 ^ 8
    ∧ field b 3 1 = (if phase then 1 else 0) ∧ field b 4 2 = e.tag % 2 ^ 16 ∧ field b 6 2 = e.head % 2 ^ 16
    ∧ field b 8 4 = e.progress % 2 ^ 32 ∧ field b 12 4 = 0 ∧ field b 16 8 = e.detail % 2 ^ 64 ∧ field b 24 8 = 0)
  ∧ ([Status.ok, .mismatch, .aborted, .stopped].map statusCode = [0x00, 0x01, 0x02, 0x03]
    ∧ [Status.malformed, .align, .aperture, .memError, .memTimeout, .fetchError].map statusCode
        = [0x10, 0x11, 0x12, 0x13, 0x14, 0x15]
    ∧ [Status.busy, .invalid, .notReady, .unknown, .drained].map statusCode = [0x20, 0x21, 0x22, 0x23, 0x30]
    ∧ [Sub.none, .immediate, .deferred, .unchanged, .stacked, .active, .outcomeOk, .outcomeMismatch, .outcomeFault, .skipped,
        .skipIgnored].map subCode = List.range 11
    ∧ [Sub.badType, .badReserved, .badWidth, .badLength, .badFlags, .badRange].map subCode = [1, 2, 3, 4, 5, 6]
    ∧ [Sub.alignSource, .alignDest, .alignLength, .alignStride].map subCode = [1, 2, 3, 4]
    ∧ (∀ o : Operand, [LookupFault.none, .denied, .queue, .rights].map (fun f => subCode (.lookup f o))
        = match o with | .source => [0x01, 0x02, 0x03, 0x04] | .dest => [0x11, 0x12, 0x13, 0x14])
    ∧ subCode (.memory .source) = 0x00 ∧ subCode (.memory .dest) = 0x10
    ∧ [Sub.fetchError, .fetchTimeout].map subCode = [1, 2]
    ∧ [Sub.invalidReserved, .invalidIndex, .invalidParameter].map subCode = [1, 2, 3]
    ∧ [Sub.byDrain, .byAbort, .byStop].map subCode = [1, 2, 3])
  ∧ ∀ s : State, freeTags s ≠ 0 →
    (∀ o, s.graceTimer ≠ .expired → oldestReady s = some o →
      nextGrant s = some ⟨.completion o.ring, .write, (s.ring o.ring).base + 32 * (s.ring o.ring).tail, 32,
                          entryBytes o.entry (s.ring o.ring).phase⟩)
    ∧ (s.graceTimer = .expired ∨ oldestReady s = none →
      (s.rootRead = .waiting → nextGrant s = some ⟨.rootRead, .read, s.rootInUse.toNat, 64, []⟩)
      ∧ (∀ i, s.rootRead ≠ .waiting → s.admin = .fetching i false →
          nextGrant s = some ⟨.adminRecord, .read, s.adminRing.base + 64 * i, 64, []⟩)
      ∧ (∀ b before w after, s.rootRead ≠ .waiting → s.admin = .executing b (.writing (before ++ w :: after) none) →
          (∀ v ∈ before, v.progress ≠ .waiting) → w.progress = .waiting →
          nextGrant s = some ⟨.adminWrite before.length, .write, w.address, w.data.length, w.data⟩)
      ∧ (s.rootRead ≠ .waiting → (∀ i, s.admin ≠ .fetching i false) →
          (∀ b ws, s.admin = .executing b (.writing ws none) → ∀ w ∈ ws, w.progress ≠ .waiting) →
          (∀ f, s.fetch = some f → f.issued = false →
            nextGrant s = some ⟨.fetch, .read, (s.queue f.queue).ringBase + 64 * f.index, 64, []⟩)
          ∧ ((∀ f, s.fetch = some f → f.issued = true) →
              (freeTags s < 5 → nextGrant s = none)
              ∧ (∀ g, s.segment = some g → g.phase = .settling → nextGrant s = none)
              ∧ (∀ g, s.segment = some g → (∀ p ∈ g.requests, p.progress ≠ .waiting) → nextGrant s = none)
              ∧ (s.segment = none → nextGrant s = none)
              ∧ ∀ g before q after, 5 ≤ freeTags s → s.segment = some g → g.phase ≠ .settling →
                  g.requests = before ++ q :: after → (∀ p ∈ before, p.progress ≠ .waiting) → q.progress = .waiting →
                  nextGrant s = some ⟨.mover before.length, q.kind, q.system, q.length,
                                      if q.kind = .write then q.data else []⟩)))
    ∧ ∀ o before after, s.occupied = before ++ o :: after →
        (∀ p ∈ before, ¬ ((s.ring p.ring).state = .active ∧ ((s.ring p.ring).tail + 1) % (s.ring p.ring).size ≠ (s.ring p.ring).head
                          ∧ ∀ x ∈ s.occupied, x.ring = p.ring → x.inFlight = false)) →
        (s.ring o.ring).state = .active → ((s.ring o.ring).tail + 1) % (s.ring o.ring).size ≠ (s.ring o.ring).head →
        (∀ x ∈ s.occupied, x.ring = o.ring → x.inFlight = false) → oldestReady s = some o

/-- What serving the clients does. Nothing, when no client that asks can be served; else the next client is served and the rest after
it: the FREE tag of lowest number becomes IN_USE with the client's request and the timeout in force, the request is sent, and its
owner notes that it is out, all in one step (R93, R94, R95). In the end no client that asks can be served, and nothing has changed
but tags, requests sent and those notes; a grant to the mover leaves at least four tags FREE (R93). That the asks of one step are
served at its end, in R94's order, is log 23. -/
def Obligations.GrantsServeEveryClientTheyCan : Prop :=
  (∀ s : State, OnlyIssues s (grantAll s) ∧ nextGrant (grantAll s) = none ∧ (nextGrant s = none → grantAll s = s)
    ∧ (freeTags s = 0 → nextGrant s = none))
  ∧ ∀ (s : State) (a : Ask) (g : TagId), nextGrant s = some a → s.tag g = .free → (∀ j, j < g → s.tag j ≠ .free) →
      let out : State :=
        { s.setTag g (.inUse a.owner a.kind a.address a.length s.requestTimeout) with
          sent := s.sent ++ [⟨g, a.kind, a.address, a.length, a.data⟩] }
      (∀ c before o after, a.owner = .completion c → s.occupied = before ++ o :: after → o.ring = c →
          (∀ p ∈ before, p.ring ≠ c) →
          grantAll s = grantAll { out with occupied := before ++ { o with inFlight := true } :: after })
      ∧ (a.owner = .rootRead → grantAll s = grantAll { out with rootRead := .issued })
      ∧ (∀ i, a.owner = .adminRecord → s.admin = .fetching i false →
          grantAll s = grantAll { out with admin := .fetching i true })
      ∧ (∀ k b ws, a.owner = .adminWrite k → s.admin = .executing b (.writing ws none) →
          grantAll s = grantAll { out with
            admin := .executing b (.writing (ws.modify k fun w => { w with progress := .issued }) none) })
      ∧ (∀ f, a.owner = .fetch → s.fetch = some f → grantAll s = grantAll { out with fetch := some { f with issued := true } })
      ∧ (∀ k w, a.owner = .mover k → s.segment = some w →
          4 ≤ freeTags out
          ∧ grantAll s = grantAll { out with
              segment := some { w with requests := w.requests.modify k fun q => { q with progress := .issued } } })

/-! ## Resolutions of requests -/

/-- The data of a fetch fills the slot, or is dropped when the fetch is cancelled; the reservation becomes free and is claimed, and
the fetch unit is IDLE (R31, R62, R63, R109; log 6). The order of the answered tag's freeing and the grants within the step is
log 7. -/
def Obligations.FetchDataFillsTheSlot : Prop :=
  ∀ (tg : TagId) (ad tm : Nat) (b : List Byte) (f : Fetch) (s : State), Ready s →
    s.tag tg = .inUse .fetch .read ad b.length tm → s.fetch = some f →
    let d := s.queue f.queue
    let base : State :=
      { s.setQueue f.queue { d with slot := if d.slot = .filling true then .empty else .full b } with
        reserved := removeHolder .fetch s.reserved, fetch := none }
    ∃ t, exec (answerOf tg (.data b)) s = .next t ∧ EndsResolved tg (.data b) (claimFreed base) t

/-- A fetch that fails: cancelled it only ends; as a look-ahead it sets the hold; otherwise the queue is HALTED with cause
FETCH, its head kept, and a FETCH_ERROR entry is placed with the fetch's reservation. A reservation that becomes free is claimed
(R31, R63, R64, R65, R66, R109, R110; log 6). The order of the answered tag's freeing and the grants within the step is log 7. -/
def Obligations.FetchFailureHaltsOrHolds : Prop :=
  ∀ (tg : TagId) (r : Resolution) (ad n tm : Nat) (f : Fetch) (s : State), Ready s → r = .error ∨ r = .timeout →
    s.tag tg = .inUse .fetch .read ad n tm → s.fetch = some f →
    let d := s.queue f.queue
    let x := handed tg r s
    let released : State := { x with reserved := removeHolder .fetch s.reserved, fetch := none }
    (d.slot = .filling true →
      ∃ t, exec (answerOf tg r) s = .next t
        ∧ EndsResolved tg r (claimFreed (released.setQueue f.queue { d with slot := .empty })) t)
    ∧ (d.slot ≠ .filling true → d.state = .running ∨ d.state = .suspended →
      ∃ t, exec (answerOf tg r) s = .next t
        ∧ EndsResolved tg r (claimFreed (released.setQueue f.queue { d with slot := .empty, hold := true })) t)
    ∧ (d.slot ≠ .filling true → d.state ≠ .running → d.state ≠ .suspended →
      ∃ t, exec (answerOf tg r) s = .next t
        ∧ EndsResolved tg r
            (selectOnFree s
              (withEntry f.ring
                ⟨.fetchError, if r = .timeout then .fetchTimeout else .fetchError, f.queue.val + 1, 0, d.head, 0,
                 d.ringBase + 64 * d.head⟩ false
                (released.setQueue f.queue { d with slot := .empty, state := .halted, haltCause := .fetch }))) t)

/-- The ACK of an entry's write: the entry becomes free and is claimed, the tail advances, the phase flips at the wrap, the entry is
counted, notification is evaluated, and the age timer starts with the first unannounced entry (R31, R109, R112, R115, R121, R122;
log 6). The order of the answered tag's freeing and the grants within the step is log 7. -/
def Obligations.WrittenEntryMovesItsRingOn : Prop :=
  ∀ (tg : TagId) (c : CqId) (ad n tm : Nat) (o : Occupied) (before after : List Occupied) (s : State), Ready s →
    s.tag tg = .inUse (.completion c) .write ad n tm → s.occupied = before ++ o :: after → o.ring = c → o.inFlight = true →
    (∀ p ∈ before, p.ring = c → p.inFlight = false) → (s.ring c).tail < (s.ring c).size →
    let r := s.ring c
    let wraps : Prop := r.tail + 1 = r.size
    let notifies : Prop :=
      r.threshold ≤ r.unannounced + 1 ∨ (o.entry.status ≠ .ok ∧ o.entry.status ≠ .mismatch) ∨ o.notifyNow = true
    let base : State :=
      { s.setRing c { r with
          tail := if wraps then 0 else r.tail + 1
          phase := if wraps then !r.phase else r.phase
          written := min (r.written + 1) 4294967295
          unannounced := r.unannounced + 1
          notifyPending := if notifies then true else r.notifyPending
          ageTimer := if r.unannounced = 0 ∧ r.ageLimit ≠ 0 then some r.ageLimit else r.ageTimer } with
        occupied := before ++ after }
    ∃ t, exec (answerOf tg .ack) s = .next t ∧ EndsResolved tg .ack (claimFreed base) t

/-- A write of an entry that resolves with ERROR or TIMEOUT makes its ring BROKEN, its tail and phase kept, and discards every
occupied entry bound for it, each counted, after which the freed entries are claimed; no queue, context or reservation changes
otherwise (R31, R109, R118; log 6). The order of the answered tag's freeing and the grants within the step is log 7. -/
def Obligations.FailedEntryWriteBreaksItsRing : Prop :=
  ∀ (tg : TagId) (r : Resolution) (c : CqId) (ad n tm : Nat) (s : State), Ready s → r = .error ∨ r = .timeout →
    s.tag tg = .inUse (.completion c) .write ad n tm → (∃ o ∈ s.occupied, o.ring = c ∧ o.inFlight = true) →
    let lost := (s.occupied.filter fun o => o.ring = c).length
    let base : State :=
      { (handed tg r s).setRing c
          { s.ring c with state := .broken, discarded := min ((s.ring c).discarded + lost) 4294967295 } with
        occupied := s.occupied.filter fun o => o.ring ≠ c }
    ∃ t, exec (answerOf tg r) s = .next t ∧ EndsResolved tg r (claimFreed base) t

/-- The data of the admin unit's read becomes the record in execution, the head advances, and in the same step the checks of R135 are
made, their verdict held with the record (R132, R135); a failed read halts the unit, keeps the head and places a FETCH_ERROR entry on
CQ0 (R110, R133; log 6 for the claim of an entry that a BROKEN CQ0 makes free). That the command itself follows as the row of its own
is log 5. The order of the answered tag's freeing and the grants within the step is log 7. -/
def Obligations.AdminReadIsTakenOrHalts : Prop :=
  ∀ (tg : TagId) (ad n tm i : Nat) (out : Bool) (s : State), Ready s →
    s.tag tg = .inUse .adminRecord .read ad n tm → s.admin = .fetching i out →
    (∀ b : List Byte, b.length = n →
      let x : State := { s with adminRing := { s.adminRing with head := (s.adminRing.head + 1) % s.adminRing.size } }
      ∃ t, exec (answerOf tg (.data b)) s = .next t
        ∧ EndsResolved tg (.data b) { x with admin := .executing b (.checked (adminCheck x b)) } t)
    ∧ ∀ r, r = .error ∨ r = .timeout →
      ∃ t, exec (answerOf tg r) s = .next t
        ∧ EndsResolved tg r
            (selectOnFree s
              (withEntry 0
                ⟨.fetchError, if r = .timeout then .fetchTimeout else .fetchError, 0, 0, i, 0, s.adminRing.base + 64 * i⟩ false
                { handed tg r s with admin := .halted i, reserved := removeHolder .adminRecord s.reserved })) t

/-- The root read resolves: with RUN 1, DATA that passes R160's checks starts the engine with CQ0 and the admin ring of the
block and runs selection, any other DATA fails it with ROOT_INVALID, ERROR and TIMEOUT fail it with ROOT_READ; with RUN 0 the engine
is STOPPED (R31, R159, R160, R161). The order of the answered tag's freeing and the grants within the step is log 7. -/
def Obligations.RootReadDecidesTheStart : Prop :=
  ∀ (tg : TagId) (r : Resolution) (ad n tm : Nat) (s : State), Ready s →
    s.tag tg = .inUse .rootRead .read ad n tm → s.rootRead = .issued →
    (s.run = false → (∃ b, r = .data b) ∨ r = .error ∨ r = .timeout →
      ∃ t, exec (answerOf tg r) s = .next t
        ∧ EndsResolved tg r { handed tg r s with
            rootRead := .none, engine := .stopped, cause := if r = .error ∨ r = .timeout then .rootRead else .none } t)
    ∧ (s.run = true → r = .error ∨ r = .timeout →
      ∃ t, exec (answerOf tg r) s = .next t
        ∧ EndsResolved tg r { handed tg r s with rootRead := .none, engine := .failed, cause := .rootRead } t)
    ∧ ∀ b : List Byte, s.run = true → r = .data b → b.length = n →
        let good : Prop :=
          field b 10 6 = 0 ∧ field b 32 32 = 0
          ∧ (∃ k, 3 ≤ k ∧ k ≤ 8 ∧ field b 8 2 = 2 ^ k) ∧ field b 0 8 % 4096 = 0 ∧ field b 0 8 + 64 * field b 8 2 ≤ 2 ^ 48
          ∧ (∃ k, 4 ≤ k ∧ k ≤ 12 ∧ field b 24 2 = 2 ^ k) ∧ field b 16 8 % 4096 = 0
          ∧ field b 16 8 + 32 * field b 24 2 ≤ 2 ^ 48
          ∧ 1 ≤ field b 26 2 ∧ field b 26 2 ≤ 255 ∧ field b 28 4 ≤ 65535
        (¬ good → ∃ t, exec (answerOf tg r) s = .next t
          ∧ EndsResolved tg r { s with rootRead := .none, engine := .failed, cause := .rootInvalid } t)
        ∧ (good →
          let base : State :=
            { s.setRing 0 { s.ring 0 with
                state := .active, base := field b 16 8, size := field b 24 2, threshold := field b 26 2
                ageLimit := field b 28 4, head := 0, tail := 0, phase := true, notifyPending := false, unannounced := 0
                ageTimer := none } with
              rootRead := .none, engine := .running, adminRing := ⟨field b 0 8, field b 8 2, 0, 0⟩ }
          ∃ t, exec (answerOf tg r) s = .next t ∧ EndsResolved tg r (select base) t)

/-- The writes of a statistics block or queue report: an ACK among others still open is noted; the last ACK completes the
command OK; after a failure no write that waits is issued, the outcomes of those still out are set aside, and the command
completes MEM_ERROR or MEM_TIMEOUT with the address of the first failed write (R110, R136, R151, R152; log 6 for the claim of an
entry that a BROKEN CQ0 makes free). The order of the answered tag's freeing and the grants within the step is log 7. -/
def Obligations.BlockWritesCompleteTheCommand : Prop :=
  ∀ (tg : TagId) (r : Resolution) (k ad n tm : Nat) (b : List Byte) (ws : List AdminWrite) (w : AdminWrite) (s : State),
    Ready s → s.tag tg = .inUse (.adminWrite k) .write ad n tm → ws[k]? = some w → w.progress = .issued →
    let ws' := ws.modify k fun w => { w with progress := .resolved }
    (∀ f, s.admin = .executing b (.writing ws f) → r = .ack ∨ r = .error ∨ r = .timeout →
      let f' : Option WriteFailure := match f with
        | some e => some e
        | none => if r = .ack then none else some ⟨r == .timeout, w.address⟩
      let x := handed tg r s
      let settled : Prop := match f' with
        | some _ => ∀ v ∈ ws', v.progress ≠ .issued
        | none => ∀ v ∈ ws', v.progress = .resolved
      (¬ settled → ∃ t, exec (answerOf tg r) s = .next t
        ∧ EndsResolved tg r { x with admin := .executing b (.writing ws' f') } t)
      ∧ (settled → ∃ t, exec (answerOf tg r) s = .next t
        ∧ EndsResolved tg r
            (selectOnFree s
              (match f' with
               | none => withCompletion x b .ok .none 0
               | some e => withCompletion x b (if e.timeout then .memTimeout else .memError) .none e.address)) t))

/-- The data of a read of the segment is kept at its request; when it was the last, a COPY goes on to write its destination range
with what it has read, each element's bytes reversed under SWAP, and a COMPARE is at its boundary: MISMATCH at the first element in
which the operands differ, with the bytes done before it, or SUCCESS (R3, R13, R14, R16, R17, R20). What a boundary does is
Obligations.BoundaryPreemptsOrContinues, with logs 6 and 9 for an aperture command's completion at it. The order of the answered
tag's freeing and the grants within the step is log 7. -/
def Obligations.MoverKeepsWhatItReads : Prop :=
  ∀ (tg : TagId) (k ad tm : Nat) (b : List Byte) (c : Context) (g : Segment) (s : State), Ready s →
    s.tag tg = .inUse (.mover k) .read ad b.length tm → s.active = some c → s.segment = some g → g.phase = .reading →
    let kept := g.requests.modify k fun q => { q with progress := .resolved, data := b }
    let brought (o : Operand) := (kept.filter fun q => q.operand = o ∧ q.kind = .read).flatMap fun q => q.data
    ((∃ q ∈ kept, q.progress ≠ .resolved) → ∃ t, exec (answerOf tg (.data b)) s = .next t
      ∧ EndsResolved tg (.data b) { s with segment := some { g with requests := kept } } t)
    ∧ (∀ d : OperandRange, (∀ q ∈ kept, q.progress = .resolved) → c.record.type = 1 → g.dest = some d →
        let read := brought .source
        let carried := if c.record.swap then swapElements c.record.width read else read
        ∃ t, exec (answerOf tg (.data b)) s = .next t
          ∧ EndsResolved tg (.data b)
              { s with segment := some { g with requests := rangeRequests .dest .write d carried, readData := read
                                                phase := .writing } } t)
    ∧ ((∀ q ∈ kept, q.progress = .resolved) → c.record.type = 3 → 0 < c.record.width →
        let element (o : Operand) (j : Nat) := ((brought o).drop (j * c.record.width)).take c.record.width
        let elements := (brought .source).length / c.record.width
        (∀ j, j < elements → element .source j ≠ element .dest j → (∀ i, i < j → element .source i = element .dest i) →
          ∃ t, exec (answerOf tg (.data b)) s = .next t
            ∧ EndsResolved tg (.data b) (segmentBoundary (.mismatch (c.done + j * c.record.width)) s) t)
        ∧ ((∀ j, j < elements → element .source j = element .dest j) →
          ∃ t, exec (answerOf tg (.data b)) s = .next t
            ∧ EndsResolved tg (.data b) (segmentBoundary (.success g.length) s) t))

/-- A failure of a request of the segment: with others still out the segment enters SETTLING with the failure taken, and what else
resolves there is set aside; with none out the segment is at its boundary, and the record ends MEM_ERROR or MEM_TIMEOUT by the
failure taken first, with the bytes done before the segment and the engine address of the failed request, and its queue is HALTED
with cause RECORD and an emptied slot under HALT, IDLE under SKIP; selection follows (R14, R16, R22, R33, R34, R35, R36, R68, R69).
What a boundary does in every other case is Obligations.BoundaryPreemptsOrContinues, with logs 6 and 9 for an aperture command's
completion at it. The order of the answered tag's freeing and the grants within the step is log 7. -/
def Obligations.FailedRequestEndsTheRecord : Prop :=
  ∀ (tg : TagId) (r : Resolution) (k ad n tm : Nat) (kind : ReqKind) (c : Context) (g : Segment) (q : SegRequest) (s : State),
    Ready s → s.tag tg = .inUse (.mover k) kind ad n tm → s.active = some c → s.segment = some g → g.requests[k]? = some q →
    let x := handed tg r s
    let left := g.requests.modify k fun q => { q with progress := .resolved }
    let outcome (f : SegFailure) : Outcome := if f.timeout then .memTimeout f.operand f.engine else .memError f.operand f.engine
    (∀ f : SegFailure,
        (g.failure = none ∧ (r = .error ∨ r = .timeout) ∧ f = ⟨r == .timeout, q.operand, q.engine⟩)
          ∨ (g.phase = .settling ∧ g.failure = some f
              ∧ (r = .error ∨ r = .timeout ∨ (kind = .write ∧ r = .ack) ∨ (kind = .read ∧ ∃ b, r = .data b))) →
        ((∃ p ∈ left, p.progress = .issued) → ∃ t, exec (answerOf tg r) s = .next t
          ∧ EndsResolved tg r { x with segment := some { g with requests := left, phase := .settling, failure := some f } } t)
        ∧ ((∀ p ∈ left, p.progress ≠ .issued) → ∃ t, exec (answerOf tg r) s = .next t
          ∧ EndsResolved tg r (segmentBoundary (outcome f) x) t))
    ∧ ((∀ p ∈ left, p.progress ≠ .issued) → g.failure = none → r = .error ∨ r = .timeout → s.waitingUpdate = none →
        s.engine = .running → (s.queue c.queue).drain = false → (s.queue c.queue).abortPending = false →
        (∀ b, s.admin ≠ .executing b (.waitReport c.queue)) → (s.ring c.ring).state ≠ .broken →
        let d := s.queue c.queue
        let ended : State :=
          { x.setQueue c.queue { d with
              state := if d.policy = .halt then .halted else .idle
              haltCause := if d.policy = .halt then .record else d.haltCause
              hold := false, endedFault := min (d.endedFault + 1) 4294967295 } with
            segment := none, active := none, currentLevel := 0, reserved := removeHolder (.context c.queue) s.reserved
            occupied := s.occupied ++
              [⟨c.ring, ⟨if r = .timeout then .memTimeout else .memError, .memory q.operand, c.queue.val + 1, c.record.tag,
                         (c.index + 1) % d.ringSize, c.done, q.engine⟩, c.record.notifyNow, false⟩] }
        let base := if d.policy = .halt then emptySlot c.queue ended else ended
        ∃ t, exec (answerOf tg r) s = .next t ∧ EndsResolved tg r (select base) t)

/-- An acknowledgment of a segment's write among others still open is noted; the last one takes the segment to its boundary with
SUCCESS. Of the last segment it ends the record OK with all its bytes done; its queue is IDLE, or DISABLED by the stop or by its
drain with a DRAINED notice, and with SUPPRESS no entry is placed; selection follows (R4, R14, R21, R33, R34, R35, R36). What a
boundary does in every other case is Obligations.BoundaryPreemptsOrContinues, with logs 6 and 9 for an aperture command's completion
at it. The order of the answered tag's freeing and the grants within the step is log 7. -/
def Obligations.LastAcknowledgmentEndsTheRecord : Prop :=
  ∀ (tg : TagId) (k ad n tm : Nat) (c : Context) (g : Segment) (s : State), Ready s →
    s.tag tg = .inUse (.mover k) .write ad n tm → s.active = some c → s.segment = some g → g.phase = .writing →
    let left := g.requests.modify k fun q => { q with progress := .resolved }
    ((∃ q ∈ left, q.progress ≠ .resolved) → ∃ t, exec (answerOf tg .ack) s = .next t
      ∧ EndsResolved tg .ack { s with segment := some { g with requests := left } } t)
    ∧ ((∀ q ∈ left, q.progress = .resolved) → ∃ t, exec (answerOf tg .ack) s = .next t
      ∧ EndsResolved tg .ack (segmentBoundary (.success g.length) s) t)
    ∧ ((∀ q ∈ left, q.progress = .resolved) →
      c.done + g.length = c.record.rowLength * c.record.rows → s.waitingUpdate = none →
      (s.queue c.queue).abortPending = false → (∀ b, s.admin ≠ .executing b (.waitReport c.queue)) →
      (s.ring c.ring).state ≠ .broken → (s.ring 0).state ≠ .broken →
      let d := s.queue c.queue
      let ended : Occupied :=
        ⟨c.ring, ⟨.ok, .none, c.queue.val + 1, c.record.tag, (c.index + 1) % d.ringSize, c.done + g.length, 0⟩,
         c.record.notifyNow, false⟩
      let notice : Occupied :=
        ⟨0, ⟨.drained, if s.engine = .stopping then .byStop else .byDrain, c.queue.val + 1, 0, d.head, 0, 0⟩, false, false⟩
      let base : State :=
        { s.setQueue c.queue { d with
            state := if s.engine = .stopping ∨ d.drain = true then .disabled else .idle
            drain := false, hold := false, endedOk := min (d.endedOk + 1) 4294967295 } with
          segment := none, active := none, currentLevel := 0
          reserved := if d.drain then removeHolder (.drain c.queue) (removeHolder (.context c.queue) s.reserved)
                      else removeHolder (.context c.queue) s.reserved
          occupied := s.occupied ++ (if c.record.suppress then [] else [ended]) ++ (if d.drain then [notice] else []) }
      ∃ t, exec (answerOf tg .ack) s = .next t ∧ EndsResolved tg .ack (select base) t)

/-- A late response, of any result, is discarded and counted, its tag becomes FREE and the grant rule runs (R99). -/
def Obligations.LateResponseFreesItsTag : Prop :=
  ∀ (tg : TagId) (r : Result) (s : State), Ready s → s.tag tg = .stale →
    ∃ t, exec (.lateResponse (tagField tg) r) s = .next t
      ∧ AfterGrants { s.setTag tg .free with
          counters := { s.counters with lateResponses := min (s.counters.lateResponses + 1) 4294967295 } } t

/-- A response on a FREE tag, or with a tag number above 31, only raises the count of stray responses and sets FLAGS.STRAY
(R102). -/
def Obligations.StrayResponseIsOnlyCounted : Prop :=
  ∀ (v : BitVec 8) (r : Result) (s : State), Ready s → 31 < v.toNat ∨ (∃ tg, v = tagField tg ∧ s.tag tg = .free) →
    exec (.strayResponse v r) s =
      .next { s with counters := { s.counters with strayResponses := min (s.counters.strayResponses + 1) 4294967295 }
                     flags := { s.flags with stray := true } }

/-- DATA for a WRITE and ACK for a READ are taken as ERROR (R90); and a response has the effect of its tag's state, whichever
row names it (R90, log 4). -/
def Obligations.MismatchedAnswersAreErrors : Prop :=
  ∀ (tg : TagId) (o : Owner) (ad n tm : Nat) (s : State),
    (∀ b, Ready s → s.tag tg = .inUse o .write ad n tm →
      exec (.dataOrAckResponse (tagField tg) (.data b)) s = exec (.errorResponse (tagField tg)) s)
    ∧ (Ready s → s.tag tg = .inUse o .read ad n tm →
      exec (.dataOrAckResponse (tagField tg) .ack) s = exec (.errorResponse (tagField tg)) s)
    ∧ ∀ v : BitVec 8, exec (.lateResponse v .error) s = exec (.errorResponse v) s
        ∧ exec (.strayResponse v .error) s = exec (.errorResponse v) s
        ∧ exec (.lateResponse v .ack) s = exec (.dataOrAckResponse v .ack) s
        ∧ ∀ b, exec (.strayResponse v (.data b)) s = exec (.dataOrAckResponse v (.data b)) s

/-- The expiry of an IN_USE tag's timer, whoever owns the tag: the tag becomes STALE, no tag becomes FREE, and the request
timeouts are counted; no other tag but those granted in the step changes, and the sticky flags stay (R98). -/
def Obligations.TimeoutMakesTheTagStale : Prop :=
  ∀ (tg : TagId) (o : Owner) (kind : ReqKind) (ad n tm : Nat) (s : State), NothingDue s → s.tag tg = .inUse o kind ad n tm →
    ∃ t, exec (.requestTimeout tg) s = .next t ∧ t.tag tg = .stale
      ∧ t.counters.requestTimeouts = min (s.counters.requestTimeouts + 1) 4294967295
      ∧ t.counters.lateResponses = s.counters.lateResponses ∧ t.counters.strayResponses = s.counters.strayResponses
      ∧ t.counters.rejectedPosts = s.counters.rejectedPosts ∧ t.counters.rejectedAcks = s.counters.rejectedAcks
      ∧ t.flags = s.flags
      ∧ ∀ g, g ≠ tg → t.tag g = s.tag g
          ∨ (s.tag g = .free ∧ ∃ o k ad n, t.tag g = .inUse o k ad n s.requestTimeout)

/-! ## Timers -/

/-- The expiry of a running age timer sets its ring's notify pending and stops the timer (R122); that of a running grace timer ends
the waiting for the list (R125). How a stop goes on: nothing outside STOPPING; once the mover, the fetch unit and the admin unit are
idle the grace timer starts; STOPPED is reached when the timer runs and no occupied entry remains, or when it has expired and no write
is in flight, every occupied entry being dropped and counted. In STOPPED CQ0 is UNCONFIGURED with its counts kept, the admin ring
unset and a halt ended, and with RUN 1 the start begins, or fails on its root address (R113, R125, R129, R158, R164, R165). -/
def Obligations.TimersExpire : Prop :=
  (∀ (c : CqId) (us : Nat) (s : State), NothingDue s → (s.ring c).ageTimer = some us →
    exec (.ageTimerExpiry c) s = .next (s.setRing c { s.ring c with notifyPending := true, ageTimer := none }))
  ∧ (∀ (ms : Nat) (s : State), NothingDue s → s.graceTimer = .running ms →
      ∃ t, exec .stopGraceExpiry s = .next t ∧ EndsAs { s with graceTimer := .expired } t
        ∧ ∀ o ∈ t.occupied, o.inFlight = true → o ∈ s.occupied)
  ∧ ∀ s : State,
      let idle : Prop := s.active = none ∧ s.segment = none ∧ s.fetch = none ∧ (s.admin = .idle ∨ ∃ i, s.admin = .halted i)
      let stopped : State :=
        { s.setRing 0 { state := .unconfigured, base := 0, size := 0, head := 0, tail := 0, phase := false, threshold := 0,
                        ageLimit := 0, notifyPending := false, unannounced := 0, ageTimer := none,
                        written := (s.ring 0).written, discarded := (s.ring 0).discarded } with
          engine := .stopped, graceTimer := .stopped, adminRing := ⟨0, 0, 0, 0⟩
          admin := match s.admin with | .halted _ => .idle | a => a }
      let root := s.rootHi ++ s.rootLo
      let restarted : State :=
        if s.run = false then stopped
        else if root.toNat % 64 = 0 ∧ root.toNat < 2 ^ 48 then
          { stopped with engine := .starting, cause := .none, rootInUse := root, rootRead := .waiting }
        else { stopped with engine := .failed, cause := .rootInvalid, rootInUse := root }
      (s.engine ≠ .stopping → stopProgress s = s)
      ∧ (s.engine = .stopping → s.graceTimer = .stopped → ¬ idle → stopProgress s = s)
      ∧ (s.engine = .stopping → s.graceTimer = .stopped → idle → s.occupied ≠ [] →
          stopProgress s = { s with graceTimer := .running s.stopGrace })
      ∧ (∀ ms, s.engine = .stopping → s.graceTimer = .running ms → s.occupied ≠ [] → stopProgress s = s)
      ∧ (s.engine = .stopping → (s.graceTimer = .stopped ∧ idle) ∨ (∃ ms, s.graceTimer = .running ms) → s.occupied = [] →
          stopProgress s = restarted)
      ∧ (s.engine = .stopping → s.graceTimer = .expired → (∃ o ∈ s.occupied, o.inFlight = true) → stopProgress s = s)
      ∧ (s.engine = .stopping → s.graceTimer = .expired → (∀ o ∈ s.occupied, o.inFlight = false) →
          stopProgress s = { restarted with
            occupied := []
            counters := { s.counters with
              droppedAtStop := min (s.counters.droppedAtStop + s.occupied.length) 4294967295 } })

/-! ## The scheduler and the mover -/

/-- A queue is eligible exactly when it is IDLE, its slot is FULL and no drain is requested (R28). Selection with nothing to do only
makes a deferred claim void (R31; log 6). Else, with a free entry, the record of the eligible queue at the highest level, above the
stack's top, that stands nearest the front of the start order is started, as R32's steps say; otherwise the top of a non-empty stack
is resumed without a reservation. The record then goes on: a failed start check ends it with that check's status, progress 0 and
detail 0, a MARK ends OK, a lookup that faults at the formation of its segment ends it APERTURE, and each such end is followed by
selection again; else its segment is formed (R5, R8, R9, R30, R32, R36, R39, R80). -/
def Obligations.SelectionStartsOrResumes : Prop :=
  (∀ (q : WqId) (s : State),
    eligible s q = true ↔ (s.queue q).state = .idle ∧ (∃ b, (s.queue q).slot = .full b) ∧ (s.queue q).drain = false)
  ∧ (∀ s : State, NothingToStart s → select s = { s with claimDeferred := false })
  ∧ ∀ s : State, s.engine = .running → s.active = none →
    (∀ (q : WqId) (c : CqId) (b : List Byte) (before after : List WqId),
      0 < freeEntries s → (s.queue q).state = .idle → (s.queue q).slot = .full b → (s.queue q).drain = false →
      (s.queue q).ring = some c → 0 < (s.queue q).level → (∀ x ∈ s.stack.head?, x.level < (s.queue q).level) →
      s.startOrder = before ++ q :: after → q ∉ before →
      (∀ p ∈ s.startOrder, eligible s p = true → (s.queue p).level ≤ (s.queue q).level) →
      (∀ p ∈ before, eligible s p = true → (s.queue p).level < (s.queue q).level) →
      let x : Context :=
        { queue := q, level := (s.queue q).level, record := workRecord b, index := (s.queue q).head, row := 0, offset := 0
          done := 0, ring := c }
      select s =
        goesOn x true
          { s.setQueue q { s.queue q with
              head := ((s.queue q).head + 1) % (s.queue q).ringSize, slot := .empty, state := .running } with
            reserved := s.reserved ++ [⟨.context q, c⟩]
            startOrder := (before ++ after).filter (fun p => p ≠ q) ++ [q]
            active := some x, currentLevel := (s.queue q).level, claimDeferred := false })
    ∧ ∀ (x : Context) (rest : List Context), s.stack = x :: rest →
        (freeEntries s = 0 ∨ ∀ p ∈ s.startOrder, eligible s p = true → (s.queue p).level ≤ x.level) →
        select s =
          goesOn x false
            { s.setQueue x.queue { s.queue x.queue with state := .running } with
              stack := rest, active := some x, currentLevel := x.level, claimDeferred := false }

/-- The boundary of a segment: the waiting update is applied before any further segment is formed, R35's table decides, and the
completion of a LOAD or CLEAR APERTURE that waited for its update follows, which on a BROKEN CQ0 is discarded and counted, and the
freed entry claimed (R83, R85, R109, R110, R149; log 9 for its place, log 6 for the claim). The table: a failure or mismatch ends
the record with its status; so does the success of the last segment, OK; an abort pending ends it ABORTED, the admin unit's abort
being finished before any selection; in STOPPING it ends STOPPED; else an eligible queue above the current level, with a free entry,
preempts, the active context going to the top of the stack with its position advanced and its queue SUSPENDED and counted; else the
context goes on with its next segment. Selection follows every end (R16, R21, R34, R35, R36, R37, R41, R43, R47, R145). -/
def Obligations.BoundaryPreemptsOrContinues : Prop :=
  (∀ (c : Context) (o : Outcome) (s : State), s.active = some c →
    let x : State := match s.waitingUpdate with
      | none => { s with segment := none }
      | some ⟨i, some e⟩ => { s.setAperture i e with waitingUpdate := none, segment := none }
      | some ⟨i, none⟩ => { s.setAperture i { s.aperture i with valid := false } with waitingUpdate := none, segment := none }
    (s.waitingUpdate = none ∨ (∀ b, s.admin ≠ .executing b .waitUpdate) → segmentBoundary o s = boundaryRule c o x)
    ∧ ∀ b, s.waitingUpdate ≠ none → s.admin = .executing b .waitUpdate →
        let y := boundaryRule c o x
        segmentBoundary o s = selectOnFree y (withCompletion y b .ok .none 0))
  ∧ (∀ (c : Context) (s : State), s.active = some c →
      (∀ f o a, boundaryRule c (.aperture f o a) s = select (withActiveEnd c .aperture (.lookup f o) c.done a s))
      ∧ (∀ o a, boundaryRule c (.memError o a) s = select (withActiveEnd c .memError (.memory o) c.done a s))
      ∧ (∀ o a, boundaryRule c (.memTimeout o a) s = select (withActiveEnd c .memTimeout (.memory o) c.done a s))
      ∧ (∀ k, boundaryRule c (.mismatch k) s = select (withActiveEnd c .mismatch .none k k s)))
  ∧ ∀ (c : Context) (n : Nat) (s : State), s.active = some c →
    let moved : Context :=
      if c.offset + n = c.record.rowLength then { c with row := c.row + 1, offset := 0, done := c.done + n }
      else { c with offset := c.offset + n, done := c.done + n }
    let last : Prop := c.done + n = c.record.rowLength * c.record.rows
    let y : State := { s with active := some moved }
    (last → boundaryRule c (.success n) s = select (withActiveEnd moved .ok .none (c.done + n) 0 y))
    ∧ (¬ last → (s.queue c.queue).abortPending = true →
        boundaryRule c (.success n) s = select (withActiveEnd moved .aborted .none (c.done + n) 0 y))
    ∧ (¬ last → (s.queue c.queue).abortPending = false → s.engine = .stopping →
        boundaryRule c (.success n) s = withActiveEnd moved .stopped .none (c.done + n) 0 y)
    ∧ (¬ last → (s.queue c.queue).abortPending = false → s.engine = .running →
      (∀ (q : WqId) (r : CqId) (b : List Byte) (before after : List WqId),
        0 < freeEntries s → q ≠ c.queue → (s.queue q).state = .idle → (s.queue q).slot = .full b → (s.queue q).drain = false →
        (s.queue q).ring = some r → s.currentLevel < (s.queue q).level → s.startOrder = before ++ q :: after →
        (∀ p ∈ s.startOrder, eligible s p = true → (s.queue p).level ≤ (s.queue q).level) →
        (∀ p ∈ before, eligible s p = true → (s.queue p).level < (s.queue q).level) →
        let x : Context :=
          { queue := q, level := (s.queue q).level, record := workRecord b, index := (s.queue q).head, row := 0, offset := 0
            done := 0, ring := r }
        boundaryRule c (.success n) s =
          goesOn x true
            { (s.setQueue c.queue { s.queue c.queue with
                state := .suspended, timesSuspended := min ((s.queue c.queue).timesSuspended + 1) 4294967295 }).setQueue q
                { s.queue q with head := ((s.queue q).head + 1) % (s.queue q).ringSize, slot := .empty, state := .running } with
              stack := moved :: s.stack, reserved := s.reserved ++ [⟨.context q, r⟩]
              startOrder := s.startOrder.filter (fun p => p ≠ q) ++ [q]
              active := some x, currentLevel := (s.queue q).level })
      ∧ ((freeEntries s = 0 ∨ ∀ p ∈ s.startOrder, eligible s p = true → (s.queue p).level ≤ s.currentLevel) →
          boundaryRule c (.success n) s = goesOn moved false y))

/-- The lookup: DENIED when a valid DENY entry covers the range for the queue; else NONE when no DIRECT or TRANSLATE entry
covers it; else the covering one of lowest index decides by its queue set, then its right, and grants the system address (R76,
R78, R79). A segment's ranges are looked up with its queue and its length, source before destination, each from where the operand's part
of the segment begins: a COPY's source for read and its destination for write, a FILL's destination for write, a COMPARE's two for read;
the first that faults decides, with its operand and the engine address at which its range begins, and else each range has the system
address granted (R11, R15, R77, R80). -/
def Obligations.LookupFollowsItsChecks : Prop :=
  (∀ (s : State) (c : Context),
    let r := c.record
    let n := segmentLength c
    let src := segmentStart r.source r.sourceStride c
    let dst := segmentStart r.dest r.destStride c
    let both (right : ReqKind) : Except (LookupFault × Operand × Nat) (Option OperandRange × OperandRange) :=
      match lookup s c.queue .read src n, lookup s c.queue right dst n with
      | .error f, _ => .error (f, .source, src)
      | .ok _, .error f => .error (f, .dest, dst)
      | .ok x, .ok y =>
        .ok (some { engine := src, system := x, length := n }, { engine := dst, system := y, length := n })
    (r.type = 1 → lookupOperands s c = both .write)
    ∧ (r.type = 2 → lookupOperands s c =
        match lookup s c.queue .write dst n with
        | .error f => .error (f, .dest, dst)
        | .ok y => .ok (none, { engine := dst, system := y, length := n }))
    ∧ (r.type = 3 → lookupOperands s c = both .read))
  ∧ ∀ (s : State) (q : WqId) (kind : ReqKind) (address length : Nat),
    let inside (i : ApId) : Prop :=
      (s.aperture i).valid = true ∧ (s.aperture i).base ≤ address
        ∧ address + length ≤ (s.aperture i).base + 2 ^ (s.aperture i).exponent
    let denied : Prop := ∃ i, (s.aperture i).kind = .deny ∧ inside i ∧ (s.aperture i).queues.getLsbD q.val = true
    let covers (i : ApId) : Prop := (s.aperture i).kind ≠ .deny ∧ inside i
    (denied → lookup s q kind address length = .error .denied)
    ∧ (¬ denied → (∀ i, ¬ covers i) → lookup s q kind address length = .error .none)
    ∧ ∀ i, ¬ denied → covers i → (∀ j, j < i → ¬ covers j) →
        let a := s.aperture i
        let right := match kind with | .read => a.read | .write => a.write
        (a.queues.getLsbD q.val = false → lookup s q kind address length = .error .queue)
        ∧ (a.queues.getLsbD q.val = true → right = false → lookup s q kind address length = .error .rights)
        ∧ (a.queues.getLsbD q.val = true → right = true →
            lookup s q kind address length =
              .ok (if a.kind = .translate then a.target + (address - a.base) else address))

/-- The start checks in their order, each with its sub-status: the first that fails decides, a MARK is held to the first, second and
fifth, and reads no stride of a record of fewer than two rows (R2, R5, R6, R7, R8). A record that passes them has every row of every
operand it uses inside 0 to 2^48 − 1 and aligned to its width. The fields of a record are those of R173's offsets, little-endian, the
strides signed (R1, R172, R173). A segment begins in each operand at its address plus row times stride plus byte offset, and its length
is the smallest of 256, the bytes left in the row, and the bytes to the next 1 KiB boundary of its destination and, where it has one, its
source (R1, R10); in a context in its data it is not empty, ends in its row and crosses no such boundary. A FILL's segment begins with
its writes, which carry the pattern repeated from the row's start, a COPY's with the reads of its source, a COMPARE's with the reads of
both (R12, R19). The swap reverses the bytes of each element (R3). The requests of a range, reads and writes alike, are its bytes in
ascending order, one request to each aligned 64-byte block it meets, each waiting for a tag: at most five for up to 256 bytes, for
256 bytes four on a 64-byte boundary and five elsewhere; a write's data are the bytes of its part (R12, R13, R89). -/
def Obligations.RecordsSegmentsAndRequestsKeepTheirBounds : Prop :=
  (∀ (b : List Byte) (off n : Nat),
    field b off 0 = 0 ∧ field b off (n + 1) = (b.getD off 0).toNat + 256 * field b (off + 1) n)
  ∧ (∀ b : List Byte,
    let r := workRecord b
    let signed (v : Nat) : Int := if v < 2 ^ 31 then v else (v : Int) - 2 ^ 32
    r.type = field b 0 1 ∧ r.width = field b 1 1 ∧ r.flags = field b 2 2 ∧ r.tag = field b 4 2
    ∧ r.source = field b 8 6 ∧ r.dest = field b 16 6 ∧ r.rowLength = field b 24 2 ∧ r.rows = field b 26 2
    ∧ r.sourceStride = signed (field b 32 4) ∧ r.destStride = signed (field b 36 4)
    ∧ (b.length = 64 → (∀ j, j < 8 → r.pattern[j]? = b[40 + j]?)
        ∧ r.reserved = (b.drop 6).take 2 ++ (b.drop 14).take 2 ++ (b.drop 22).take 2 ++ (b.drop 28).take 4 ++ (b.drop 48).take 16)
    ∧ r.suppress = (r.flags % 2 == 1) ∧ r.notifyNow = (r.flags / 2 % 2 == 1) ∧ r.swap = (r.flags / 4 % 2 == 1))
  ∧ (∀ c : Context,
    let r := c.record
    let toEdge (address : Nat) : Nat := 1024 - address % 1024
    let own := min (min 256 (r.rowLength - c.offset)) (toEdge (segmentStart r.dest r.destStride c))
    (r.type = 1 ∨ r.type = 3 → segmentLength c = min own (toEdge (segmentStart r.source r.sourceStride c)))
    ∧ (r.type = 2 → segmentLength c = own))
  ∧ (∀ c : Context, PositionOk c →
    (segmentStart c.record.dest c.record.destStride c : Int) = c.record.dest + c.row * c.record.destStride + c.offset
    ∧ (c.record.type ≠ 2 →
        (segmentStart c.record.source c.record.sourceStride c : Int) = c.record.source + c.row * c.record.sourceStride + c.offset))
  ∧ (∀ r : WorkRecord,
    let copy : Prop := r.type = 1
    let fill : Prop := r.type = 2
    let compare : Prop := r.type = 3
    let mark : Prop := r.type = 4
    let zero (l : List Byte) : Prop := ∀ v ∈ l, v = 0
    let reserved : Prop :=
      ¬ zero r.reserved ∨ 8 ≤ r.flags ∨ (copy ∨ compare) ∧ ¬ zero r.pattern
      ∨ fill ∧ ¬ (r.source = 0 ∧ r.sourceStride = 0)
      ∨ mark ∧ ¬ (r.width = 0 ∧ r.source = 0 ∧ r.sourceStride = 0 ∧ r.dest = 0 ∧ r.destStride = 0 ∧ r.rowLength = 0
                    ∧ r.rows = 0 ∧ zero r.pattern)
    let swapped : Prop := r.flags / 4 % 2 = 1
    let inside (address : Nat) (stride : Int) : Prop :=
      0 ≤ (address : Int) ∧ (address : Int) + r.rowLength ≤ 2 ^ 48
      ∧ 0 ≤ (address : Int) + (r.rows - 1 : Nat) * stride
      ∧ (address : Int) + (r.rows - 1 : Nat) * stride + r.rowLength ≤ 2 ^ 48
    let outside : Prop := ((copy ∨ compare) ∧ ¬ inside r.source r.sourceStride) ∨ ¬ inside r.dest r.destStride
    startCheck r =
      if ¬ (copy ∨ fill ∨ compare ∨ mark) then .fails .malformed .badType
      else if reserved then .fails .malformed .badReserved
      else if mark then (if swapped then .fails .malformed .badFlags else .mark)
      else if ¬ (r.width = 1 ∨ r.width = 2 ∨ r.width = 4 ∨ r.width = 8) then .fails .malformed .badWidth
      else if r.rowLength = 0 ∨ r.rows = 0 then .fails .malformed .badLength
      else if swapped ∧ ¬ copy then .fails .malformed .badFlags
      else if outside then .fails .malformed .badRange
      else if (copy ∨ compare) ∧ r.source % r.width ≠ 0 then .fails .align .alignSource
      else if r.dest % r.width ≠ 0 then .fails .align .alignDest
      else if r.rowLength % r.width ≠ 0 then .fails .align .alignLength
      else if 1 < r.rows ∧ ((copy ∨ compare) ∧ r.sourceStride % r.width ≠ 0 ∨ r.destStride % r.width ≠ 0) then
        .fails .align .alignStride
      else .goes)
  ∧ (∀ r : WorkRecord, startCheck r = .goes →
    (r.type = 1 ∨ r.type = 2 ∨ r.type = 3) ∧ (r.width = 1 ∨ r.width = 2 ∨ r.width = 4 ∨ r.width = 8)
    ∧ 0 < r.rowLength ∧ 0 < r.rows ∧ (r.swap = true → r.type = 1)
    ∧ ∀ row, row < r.rows →
        let inside (address : Nat) (stride : Int) : Prop :=
          0 ≤ (address : Int) + row * stride ∧ (address : Int) + row * stride + r.rowLength ≤ 2 ^ 48
            ∧ ((address : Int) + row * stride) % r.width = 0
        inside r.dest r.destStride ∧ (r.type ≠ 2 → inside r.source r.sourceStride))
  ∧ (∀ c : Context, PositionOk c →
    let n := segmentLength c
    0 < n ∧ n ≤ 256 ∧ c.offset + n ≤ c.record.rowLength
      ∧ segmentStart c.record.dest c.record.destStride c % 1024 + n ≤ 1024
      ∧ (c.record.usesSource = true → segmentStart c.record.source c.record.sourceStride c % 1024 + n ≤ 1024))
  ∧ (∀ (c : Context) (src : OperandRange) (dst : OperandRange),
      let begun (l : List SegRequest) (source : Option OperandRange) (p : Phase) : Segment := ⟨dst.length, source, some dst, l, [], none, p⟩
      newSegment c none dst
          = begun (rangeRequests .dest .write dst (patternBytes c.record c.offset dst.length)) none .writing
      ∧ (c.record.type = 1 → newSegment c (some src) dst = begun (rangeRequests .source .read src []) (some src) .reading)
      ∧ (c.record.type = 3 →
          newSegment c (some src) dst
            = begun (rangeRequests .source .read src [] ++ rangeRequests .dest .read dst []) (some src) .reading))
  ∧ (∀ (r : WorkRecord) (offset n i : Nat), 0 < r.width → r.width ≤ r.pattern.length → i < n →
      (patternBytes r offset n).length = n ∧ (patternBytes r offset n)[i]? = r.pattern[(offset + i) % r.width]?)
  ∧ (∀ (w k j : Nat) (data : List Byte), 0 < w → data.length % w = 0 → k < data.length / w → j < w →
      (swapElements w data).length = data.length ∧ (swapElements w data)[k * w + j]? = data[k * w + (w - 1 - j)]?)
  ∧ ∀ (o : Operand) (kind : ReqKind) (r : OperandRange) (data : List Byte),
      let l := rangeRequests o kind r data
      (data.length = r.length → l.flatMap (fun q => q.data) = data ∧ ∀ q ∈ l, q.data.length = q.length)
      ∧ l.flatMap (fun q => List.range' q.system q.length) = List.range' r.system r.length
      ∧ l.flatMap (fun q => List.range' q.engine q.length) = List.range' r.engine r.length
      ∧ (∀ q ∈ l, 0 < q.length ∧ q.system % 64 + q.length ≤ 64 ∧ q.kind = kind ∧ q.operand = o ∧ q.progress = .waiting)
      ∧ l.Pairwise (fun p q => p.system / 64 < q.system / 64)
      ∧ (r.length ≤ 256 → l.length ≤ 5)
      ∧ (r.length = 256 → l.length = if r.system % 64 = 0 then 4 else 5)

/-! ## Laws that every step keeps -/

/-- The power-on state meets every law. -/
def Obligations.ResetMeetsEveryLaw : Prop :=
  OwnershipLaw State.reset ∧ QueueFlagLaw State.reset ∧ PendingListLaw State.reset ∧ SchedulerLaw State.reset
  ∧ StartOrderLaw State.reset ∧ WorkRingLaw State.reset ∧ PositionLaw State.reset ∧ CounterLaw State.reset
  ∧ SettingsLaw State.reset ∧ EngineLaw State.reset ∧ BindingLaw State.reset ∧ RingLaw State.reset
  ∧ RingIndexLaw State.reset ∧ DueLaw State.reset

/-- No step breaks the law of R26, a queue owns at most one context and is RUNNING or SUSPENDED exactly with one, or that of
R56, a drain is requested only in those two states and an abort is pending only in RUNNING; and what is due stays what its own step
has left: the verdict on a checked record is that of the state as it stands (R132, R135), a claim is deferred only for an idle mover
in RUNNING (R31, R109; log 6), and the engine holds its power-on values while RESET_N is low (R180; log 13). -/
def Obligations.EveryStepKeepsOwnershipAndQueueFlags : Prop :=
  ∀ s t : State, DueLaw s → step s = .next t →
    (EngineLaw s → DueLaw t) ∧ (OwnershipLaw s → OwnershipLaw t ∧ (QueueFlagLaw s → QueueFlagLaw t))

/-- No step breaks the law of the pending list: its reservations are exactly those of the contexts, the drains, the admin unit's
record and the fetch in flight, and with the occupied entries they are at most sixteen (R108). -/
def Obligations.EveryStepKeepsThePendingList : Prop :=
  ∀ s t : State, PendingListLaw s → step s = .next t → PendingListLaw t

/-- No step breaks what RUN, the root read, the grace timer and the other units can be in each engine state (R154, R156, R158,
R164). -/
def Obligations.EveryStepKeepsTheEngineLaw : Prop :=
  ∀ s t : State, EngineLaw s → step s = .next t → EngineLaw t

/-- No step breaks the laws of the scheduler: the current level is the active context's, the levels strictly fall down the
stack, and nothing is stacked without an active context (R25, R27); and the start order keeps each queue once (R29). -/
def Obligations.EveryStepKeepsTheSchedulerLaws : Prop :=
  ∀ s t : State, EngineLaw s → DueLaw s → step s = .next t →
    (SchedulerLaw s → SchedulerLaw t) ∧ (StartOrderLaw s → StartOrderLaw t)

/-- No step takes a counter past its limit, a setting out of its range, or a work ring's index out of its ring; and every
context keeps a position inside its data with bytes done equal to row times row length plus offset (R9, R21, R50, R51, R73,
R127, R138, R171). -/
def Obligations.EveryStepKeepsIndicesAndPositions : Prop :=
  ∀ s t : State, DueLaw s → step s = .next t →
    (CounterLaw s → CounterLaw t) ∧ (SettingsLaw s → SettingsLaw t) ∧ (WorkRingLaw s → WorkRingLaw t)
    ∧ (PositionLaw s → PositionLaw t)

/-- No step binds a reservation, an entry, a context, a fetch or an enabled queue to an UNCONFIGURED ring, and CQ0 stays
configured while the engine runs or stops (R109); an UNCONFIGURED ring keeps no index and asks for no attention (R113, R124); a
configured completion ring, and the admin ring while the engine runs or stops, keeps its size and its indices inside it (R113, R115,
R117, R129, R147, R160). The premises are the laws of the statements above. -/
def Obligations.EveryStepKeepsRingsBound : Prop :=
  ∀ s t : State, OwnershipLaw s → QueueFlagLaw s → PendingListLaw s → EngineLaw s → DueLaw s → BindingLaw s → step s = .next t →
    BindingLaw t ∧ (RingLaw s → RingLaw t) ∧ (RingIndexLaw s → RingIndexLaw t)
end

