-- ==== Sys2Proof/Laws/State.lean ====
section
/-! SUPPORT. One lemma for each field under each named update of State, so that no later proof unfolds an update. -/

namespace Sys2Proof.Machine

/-! ## setQueue -/

@[simp] theorem State.setQueue_pending (s : State) (q : WqId) (d : Queue) : (s.setQueue q d).pending = s.pending := rfl
@[simp] theorem State.setQueue_claimTurn (s : State) (q : WqId) (d : Queue) : (s.setQueue q d).claimTurn = s.claimTurn := rfl
@[simp] theorem State.setQueue_claimDeferred (s : State) (q : WqId) (d : Queue) : (s.setQueue q d).claimDeferred = s.claimDeferred := rfl
@[simp] theorem State.setQueue_resetTurn (s : State) (q : WqId) (d : Queue) : (s.setQueue q d).resetTurn = s.resetTurn := rfl
@[simp] theorem State.setQueue_heldEvents (s : State) (q : WqId) (d : Queue) : (s.setQueue q d).heldEvents = s.heldEvents := rfl
@[simp] theorem State.setQueue_run (s : State) (q : WqId) (d : Queue) : (s.setQueue q d).run = s.run := rfl
@[simp] theorem State.setQueue_notifyEnable (s : State) (q : WqId) (d : Queue) : (s.setQueue q d).notifyEnable = s.notifyEnable := rfl
@[simp] theorem State.setQueue_rootLo (s : State) (q : WqId) (d : Queue) : (s.setQueue q d).rootLo = s.rootLo := rfl
@[simp] theorem State.setQueue_rootHi (s : State) (q : WqId) (d : Queue) : (s.setQueue q d).rootHi = s.rootHi := rfl
@[simp] theorem State.setQueue_flags (s : State) (q : WqId) (d : Queue) : (s.setQueue q d).flags = s.flags := rfl
@[simp] theorem State.setQueue_engine (s : State) (q : WqId) (d : Queue) : (s.setQueue q d).engine = s.engine := rfl
@[simp] theorem State.setQueue_cause (s : State) (q : WqId) (d : Queue) : (s.setQueue q d).cause = s.cause := rfl
@[simp] theorem State.setQueue_rootInUse (s : State) (q : WqId) (d : Queue) : (s.setQueue q d).rootInUse = s.rootInUse := rfl
@[simp] theorem State.setQueue_rootRead (s : State) (q : WqId) (d : Queue) : (s.setQueue q d).rootRead = s.rootRead := rfl
@[simp] theorem State.setQueue_requestTimeout (s : State) (q : WqId) (d : Queue) : (s.setQueue q d).requestTimeout = s.requestTimeout := rfl
@[simp] theorem State.setQueue_stopGrace (s : State) (q : WqId) (d : Queue) : (s.setQueue q d).stopGrace = s.stopGrace := rfl
@[simp] theorem State.setQueue_graceTimer (s : State) (q : WqId) (d : Queue) : (s.setQueue q d).graceTimer = s.graceTimer := rfl
@[simp] theorem State.setQueue_counters (s : State) (q : WqId) (d : Queue) : (s.setQueue q d).counters = s.counters := rfl
@[simp] theorem State.setQueue_readData (s : State) (q : WqId) (d : Queue) : (s.setQueue q d).readData = s.readData := rfl
@[simp] theorem State.setQueue_tags (s : State) (q : WqId) (d : Queue) : (s.setQueue q d).tags = s.tags := rfl
@[simp] theorem State.setQueue_sent (s : State) (q : WqId) (d : Queue) : (s.setQueue q d).sent = s.sent := rfl
@[simp] theorem State.setQueue_fetch (s : State) (q : WqId) (d : Queue) : (s.setQueue q d).fetch = s.fetch := rfl
@[simp] theorem State.setQueue_currentLevel (s : State) (q : WqId) (d : Queue) : (s.setQueue q d).currentLevel = s.currentLevel := rfl
@[simp] theorem State.setQueue_active (s : State) (q : WqId) (d : Queue) : (s.setQueue q d).active = s.active := rfl
@[simp] theorem State.setQueue_stack (s : State) (q : WqId) (d : Queue) : (s.setQueue q d).stack = s.stack := rfl
@[simp] theorem State.setQueue_startOrder (s : State) (q : WqId) (d : Queue) : (s.setQueue q d).startOrder = s.startOrder := rfl
@[simp] theorem State.setQueue_segment (s : State) (q : WqId) (d : Queue) : (s.setQueue q d).segment = s.segment := rfl
@[simp] theorem State.setQueue_apertures (s : State) (q : WqId) (d : Queue) : (s.setQueue q d).apertures = s.apertures := rfl
@[simp] theorem State.setQueue_waitingUpdate (s : State) (q : WqId) (d : Queue) : (s.setQueue q d).waitingUpdate = s.waitingUpdate := rfl
@[simp] theorem State.setQueue_reserved (s : State) (q : WqId) (d : Queue) : (s.setQueue q d).reserved = s.reserved := rfl
@[simp] theorem State.setQueue_occupied (s : State) (q : WqId) (d : Queue) : (s.setQueue q d).occupied = s.occupied := rfl
@[simp] theorem State.setQueue_rings (s : State) (q : WqId) (d : Queue) : (s.setQueue q d).rings = s.rings := rfl
@[simp] theorem State.setQueue_admin (s : State) (q : WqId) (d : Queue) : (s.setQueue q d).admin = s.admin := rfl
@[simp] theorem State.setQueue_adminRing (s : State) (q : WqId) (d : Queue) : (s.setQueue q d).adminRing = s.adminRing := rfl

@[simp] theorem State.setQueue_ring (s : State) (q : WqId) (d : Queue) (i : CqId) : (s.setQueue q d).ring i = s.ring i := rfl
@[simp] theorem State.setQueue_tag (s : State) (q : WqId) (d : Queue) (i : TagId) : (s.setQueue q d).tag i = s.tag i := rfl
@[simp] theorem State.setQueue_aperture (s : State) (q : WqId) (d : Queue) (i : ApId) : (s.setQueue q d).aperture i = s.aperture i := rfl

/-- Reading part `j` after replacing part `q`. -/
theorem State.setQueue_queue (s : State) (q : WqId) (d : Queue) (j : WqId) :
    (s.setQueue q d).queue j = if j = q then d else s.queue j := by
  simp only [State.queue, State.setQueue, Fin.getElem_fin, Vector.getElem_set]
  by_cases h : j = q
  · simp [h]
  · have : ¬ q.val = j.val := fun e => h (Fin.ext e.symm)
    simp [h, this]

@[simp] theorem State.setQueue_queue_self (s : State) (q : WqId) (d : Queue) : (s.setQueue q d).queue q = d := by
  simp [State.setQueue_queue]

theorem State.setQueue_queue_ne (s : State) (q : WqId) (d : Queue) (j : WqId) (h : j ≠ q) :
    (s.setQueue q d).queue j = s.queue j := by
  simp [State.setQueue_queue, h]

/-- Putting a part back as it stands changes nothing. -/
theorem State.setQueue_eq_self (s : State) (q : WqId) : s.setQueue q (s.queue q) = s := by
  simp only [State.setQueue, State.queue]
  congr
  apply Vector.ext
  intro k hk
  rw [Vector.getElem_set]
  split
  · next h => subst h; rfl
  · rfl

/-! ## setRing -/

@[simp] theorem State.setRing_pending (s : State) (c : CqId) (r : Ring) : (s.setRing c r).pending = s.pending := rfl
@[simp] theorem State.setRing_claimTurn (s : State) (c : CqId) (r : Ring) : (s.setRing c r).claimTurn = s.claimTurn := rfl
@[simp] theorem State.setRing_claimDeferred (s : State) (c : CqId) (r : Ring) : (s.setRing c r).claimDeferred = s.claimDeferred := rfl
@[simp] theorem State.setRing_resetTurn (s : State) (c : CqId) (r : Ring) : (s.setRing c r).resetTurn = s.resetTurn := rfl
@[simp] theorem State.setRing_heldEvents (s : State) (c : CqId) (r : Ring) : (s.setRing c r).heldEvents = s.heldEvents := rfl
@[simp] theorem State.setRing_run (s : State) (c : CqId) (r : Ring) : (s.setRing c r).run = s.run := rfl
@[simp] theorem State.setRing_notifyEnable (s : State) (c : CqId) (r : Ring) : (s.setRing c r).notifyEnable = s.notifyEnable := rfl
@[simp] theorem State.setRing_rootLo (s : State) (c : CqId) (r : Ring) : (s.setRing c r).rootLo = s.rootLo := rfl
@[simp] theorem State.setRing_rootHi (s : State) (c : CqId) (r : Ring) : (s.setRing c r).rootHi = s.rootHi := rfl
@[simp] theorem State.setRing_flags (s : State) (c : CqId) (r : Ring) : (s.setRing c r).flags = s.flags := rfl
@[simp] theorem State.setRing_engine (s : State) (c : CqId) (r : Ring) : (s.setRing c r).engine = s.engine := rfl
@[simp] theorem State.setRing_cause (s : State) (c : CqId) (r : Ring) : (s.setRing c r).cause = s.cause := rfl
@[simp] theorem State.setRing_rootInUse (s : State) (c : CqId) (r : Ring) : (s.setRing c r).rootInUse = s.rootInUse := rfl
@[simp] theorem State.setRing_rootRead (s : State) (c : CqId) (r : Ring) : (s.setRing c r).rootRead = s.rootRead := rfl
@[simp] theorem State.setRing_requestTimeout (s : State) (c : CqId) (r : Ring) : (s.setRing c r).requestTimeout = s.requestTimeout := rfl
@[simp] theorem State.setRing_stopGrace (s : State) (c : CqId) (r : Ring) : (s.setRing c r).stopGrace = s.stopGrace := rfl
@[simp] theorem State.setRing_graceTimer (s : State) (c : CqId) (r : Ring) : (s.setRing c r).graceTimer = s.graceTimer := rfl
@[simp] theorem State.setRing_counters (s : State) (c : CqId) (r : Ring) : (s.setRing c r).counters = s.counters := rfl
@[simp] theorem State.setRing_readData (s : State) (c : CqId) (r : Ring) : (s.setRing c r).readData = s.readData := rfl
@[simp] theorem State.setRing_tags (s : State) (c : CqId) (r : Ring) : (s.setRing c r).tags = s.tags := rfl
@[simp] theorem State.setRing_sent (s : State) (c : CqId) (r : Ring) : (s.setRing c r).sent = s.sent := rfl
@[simp] theorem State.setRing_queues (s : State) (c : CqId) (r : Ring) : (s.setRing c r).queues = s.queues := rfl
@[simp] theorem State.setRing_fetch (s : State) (c : CqId) (r : Ring) : (s.setRing c r).fetch = s.fetch := rfl
@[simp] theorem State.setRing_currentLevel (s : State) (c : CqId) (r : Ring) : (s.setRing c r).currentLevel = s.currentLevel := rfl
@[simp] theorem State.setRing_active (s : State) (c : CqId) (r : Ring) : (s.setRing c r).active = s.active := rfl
@[simp] theorem State.setRing_stack (s : State) (c : CqId) (r : Ring) : (s.setRing c r).stack = s.stack := rfl
@[simp] theorem State.setRing_startOrder (s : State) (c : CqId) (r : Ring) : (s.setRing c r).startOrder = s.startOrder := rfl
@[simp] theorem State.setRing_segment (s : State) (c : CqId) (r : Ring) : (s.setRing c r).segment = s.segment := rfl
@[simp] theorem State.setRing_apertures (s : State) (c : CqId) (r : Ring) : (s.setRing c r).apertures = s.apertures := rfl
@[simp] theorem State.setRing_waitingUpdate (s : State) (c : CqId) (r : Ring) : (s.setRing c r).waitingUpdate = s.waitingUpdate := rfl
@[simp] theorem State.setRing_reserved (s : State) (c : CqId) (r : Ring) : (s.setRing c r).reserved = s.reserved := rfl
@[simp] theorem State.setRing_occupied (s : State) (c : CqId) (r : Ring) : (s.setRing c r).occupied = s.occupied := rfl
@[simp] theorem State.setRing_admin (s : State) (c : CqId) (r : Ring) : (s.setRing c r).admin = s.admin := rfl
@[simp] theorem State.setRing_adminRing (s : State) (c : CqId) (r : Ring) : (s.setRing c r).adminRing = s.adminRing := rfl

@[simp] theorem State.setRing_queue (s : State) (c : CqId) (r : Ring) (i : WqId) : (s.setRing c r).queue i = s.queue i := rfl
@[simp] theorem State.setRing_tag (s : State) (c : CqId) (r : Ring) (i : TagId) : (s.setRing c r).tag i = s.tag i := rfl
@[simp] theorem State.setRing_aperture (s : State) (c : CqId) (r : Ring) (i : ApId) : (s.setRing c r).aperture i = s.aperture i := rfl

/-- Reading part `j` after replacing part `c`. -/
theorem State.setRing_ring (s : State) (c : CqId) (r : Ring) (j : CqId) :
    (s.setRing c r).ring j = if j = c then r else s.ring j := by
  simp only [State.ring, State.setRing, Fin.getElem_fin, Vector.getElem_set]
  by_cases h : j = c
  · simp [h]
  · have : ¬ c.val = j.val := fun e => h (Fin.ext e.symm)
    simp [h, this]

@[simp] theorem State.setRing_ring_self (s : State) (c : CqId) (r : Ring) : (s.setRing c r).ring c = r := by
  simp [State.setRing_ring]

theorem State.setRing_ring_ne (s : State) (c : CqId) (r : Ring) (j : CqId) (h : j ≠ c) :
    (s.setRing c r).ring j = s.ring j := by
  simp [State.setRing_ring, h]

/-- Putting a part back as it stands changes nothing. -/
theorem State.setRing_eq_self (s : State) (c : CqId) : s.setRing c (s.ring c) = s := by
  simp only [State.setRing, State.ring]
  congr
  apply Vector.ext
  intro k hk
  rw [Vector.getElem_set]
  split
  · next h => subst h; rfl
  · rfl

/-! ## setTag -/

@[simp] theorem State.setTag_pending (s : State) (t : TagId) (g : TagState) : (s.setTag t g).pending = s.pending := rfl
@[simp] theorem State.setTag_claimTurn (s : State) (t : TagId) (g : TagState) : (s.setTag t g).claimTurn = s.claimTurn := rfl
@[simp] theorem State.setTag_claimDeferred (s : State) (t : TagId) (g : TagState) : (s.setTag t g).claimDeferred = s.claimDeferred := rfl
@[simp] theorem State.setTag_resetTurn (s : State) (t : TagId) (g : TagState) : (s.setTag t g).resetTurn = s.resetTurn := rfl
@[simp] theorem State.setTag_heldEvents (s : State) (t : TagId) (g : TagState) : (s.setTag t g).heldEvents = s.heldEvents := rfl
@[simp] theorem State.setTag_run (s : State) (t : TagId) (g : TagState) : (s.setTag t g).run = s.run := rfl
@[simp] theorem State.setTag_notifyEnable (s : State) (t : TagId) (g : TagState) : (s.setTag t g).notifyEnable = s.notifyEnable := rfl
@[simp] theorem State.setTag_rootLo (s : State) (t : TagId) (g : TagState) : (s.setTag t g).rootLo = s.rootLo := rfl
@[simp] theorem State.setTag_rootHi (s : State) (t : TagId) (g : TagState) : (s.setTag t g).rootHi = s.rootHi := rfl
@[simp] theorem State.setTag_flags (s : State) (t : TagId) (g : TagState) : (s.setTag t g).flags = s.flags := rfl
@[simp] theorem State.setTag_engine (s : State) (t : TagId) (g : TagState) : (s.setTag t g).engine = s.engine := rfl
@[simp] theorem State.setTag_cause (s : State) (t : TagId) (g : TagState) : (s.setTag t g).cause = s.cause := rfl
@[simp] theorem State.setTag_rootInUse (s : State) (t : TagId) (g : TagState) : (s.setTag t g).rootInUse = s.rootInUse := rfl
@[simp] theorem State.setTag_rootRead (s : State) (t : TagId) (g : TagState) : (s.setTag t g).rootRead = s.rootRead := rfl
@[simp] theorem State.setTag_requestTimeout (s : State) (t : TagId) (g : TagState) : (s.setTag t g).requestTimeout = s.requestTimeout := rfl
@[simp] theorem State.setTag_stopGrace (s : State) (t : TagId) (g : TagState) : (s.setTag t g).stopGrace = s.stopGrace := rfl
@[simp] theorem State.setTag_graceTimer (s : State) (t : TagId) (g : TagState) : (s.setTag t g).graceTimer = s.graceTimer := rfl
@[simp] theorem State.setTag_counters (s : State) (t : TagId) (g : TagState) : (s.setTag t g).counters = s.counters := rfl
@[simp] theorem State.setTag_readData (s : State) (t : TagId) (g : TagState) : (s.setTag t g).readData = s.readData := rfl
@[simp] theorem State.setTag_sent (s : State) (t : TagId) (g : TagState) : (s.setTag t g).sent = s.sent := rfl
@[simp] theorem State.setTag_queues (s : State) (t : TagId) (g : TagState) : (s.setTag t g).queues = s.queues := rfl
@[simp] theorem State.setTag_fetch (s : State) (t : TagId) (g : TagState) : (s.setTag t g).fetch = s.fetch := rfl
@[simp] theorem State.setTag_currentLevel (s : State) (t : TagId) (g : TagState) : (s.setTag t g).currentLevel = s.currentLevel := rfl
@[simp] theorem State.setTag_active (s : State) (t : TagId) (g : TagState) : (s.setTag t g).active = s.active := rfl
@[simp] theorem State.setTag_stack (s : State) (t : TagId) (g : TagState) : (s.setTag t g).stack = s.stack := rfl
@[simp] theorem State.setTag_startOrder (s : State) (t : TagId) (g : TagState) : (s.setTag t g).startOrder = s.startOrder := rfl
@[simp] theorem State.setTag_segment (s : State) (t : TagId) (g : TagState) : (s.setTag t g).segment = s.segment := rfl
@[simp] theorem State.setTag_apertures (s : State) (t : TagId) (g : TagState) : (s.setTag t g).apertures = s.apertures := rfl
@[simp] theorem State.setTag_waitingUpdate (s : State) (t : TagId) (g : TagState) : (s.setTag t g).waitingUpdate = s.waitingUpdate := rfl
@[simp] theorem State.setTag_reserved (s : State) (t : TagId) (g : TagState) : (s.setTag t g).reserved = s.reserved := rfl
@[simp] theorem State.setTag_occupied (s : State) (t : TagId) (g : TagState) : (s.setTag t g).occupied = s.occupied := rfl
@[simp] theorem State.setTag_rings (s : State) (t : TagId) (g : TagState) : (s.setTag t g).rings = s.rings := rfl
@[simp] theorem State.setTag_admin (s : State) (t : TagId) (g : TagState) : (s.setTag t g).admin = s.admin := rfl
@[simp] theorem State.setTag_adminRing (s : State) (t : TagId) (g : TagState) : (s.setTag t g).adminRing = s.adminRing := rfl

@[simp] theorem State.setTag_queue (s : State) (t : TagId) (g : TagState) (i : WqId) : (s.setTag t g).queue i = s.queue i := rfl
@[simp] theorem State.setTag_ring (s : State) (t : TagId) (g : TagState) (i : CqId) : (s.setTag t g).ring i = s.ring i := rfl
@[simp] theorem State.setTag_aperture (s : State) (t : TagId) (g : TagState) (i : ApId) : (s.setTag t g).aperture i = s.aperture i := rfl

/-- Reading part `j` after replacing part `t`. -/
theorem State.setTag_tag (s : State) (t : TagId) (g : TagState) (j : TagId) :
    (s.setTag t g).tag j = if j = t then g else s.tag j := by
  simp only [State.tag, State.setTag, Fin.getElem_fin, Vector.getElem_set]
  by_cases h : j = t
  · simp [h]
  · have : ¬ t.val = j.val := fun e => h (Fin.ext e.symm)
    simp [h, this]

@[simp] theorem State.setTag_tag_self (s : State) (t : TagId) (g : TagState) : (s.setTag t g).tag t = g := by
  simp [State.setTag_tag]

theorem State.setTag_tag_ne (s : State) (t : TagId) (g : TagState) (j : TagId) (h : j ≠ t) :
    (s.setTag t g).tag j = s.tag j := by
  simp [State.setTag_tag, h]

/-- Putting a part back as it stands changes nothing. -/
theorem State.setTag_eq_self (s : State) (t : TagId) : s.setTag t (s.tag t) = s := by
  simp only [State.setTag, State.tag]
  congr
  apply Vector.ext
  intro k hk
  rw [Vector.getElem_set]
  split
  · next h => subst h; rfl
  · rfl

/-! ## setAperture -/

@[simp] theorem State.setAperture_pending (s : State) (a : ApId) (e : Aperture) : (s.setAperture a e).pending = s.pending := rfl
@[simp] theorem State.setAperture_claimTurn (s : State) (a : ApId) (e : Aperture) : (s.setAperture a e).claimTurn = s.claimTurn := rfl
@[simp] theorem State.setAperture_claimDeferred (s : State) (a : ApId) (e : Aperture) : (s.setAperture a e).claimDeferred = s.claimDeferred := rfl
@[simp] theorem State.setAperture_resetTurn (s : State) (a : ApId) (e : Aperture) : (s.setAperture a e).resetTurn = s.resetTurn := rfl
@[simp] theorem State.setAperture_heldEvents (s : State) (a : ApId) (e : Aperture) : (s.setAperture a e).heldEvents = s.heldEvents := rfl
@[simp] theorem State.setAperture_run (s : State) (a : ApId) (e : Aperture) : (s.setAperture a e).run = s.run := rfl
@[simp] theorem State.setAperture_notifyEnable (s : State) (a : ApId) (e : Aperture) : (s.setAperture a e).notifyEnable = s.notifyEnable := rfl
@[simp] theorem State.setAperture_rootLo (s : State) (a : ApId) (e : Aperture) : (s.setAperture a e).rootLo = s.rootLo := rfl
@[simp] theorem State.setAperture_rootHi (s : State) (a : ApId) (e : Aperture) : (s.setAperture a e).rootHi = s.rootHi := rfl
@[simp] theorem State.setAperture_flags (s : State) (a : ApId) (e : Aperture) : (s.setAperture a e).flags = s.flags := rfl
@[simp] theorem State.setAperture_engine (s : State) (a : ApId) (e : Aperture) : (s.setAperture a e).engine = s.engine := rfl
@[simp] theorem State.setAperture_cause (s : State) (a : ApId) (e : Aperture) : (s.setAperture a e).cause = s.cause := rfl
@[simp] theorem State.setAperture_rootInUse (s : State) (a : ApId) (e : Aperture) : (s.setAperture a e).rootInUse = s.rootInUse := rfl
@[simp] theorem State.setAperture_rootRead (s : State) (a : ApId) (e : Aperture) : (s.setAperture a e).rootRead = s.rootRead := rfl
@[simp] theorem State.setAperture_requestTimeout (s : State) (a : ApId) (e : Aperture) : (s.setAperture a e).requestTimeout = s.requestTimeout := rfl
@[simp] theorem State.setAperture_stopGrace (s : State) (a : ApId) (e : Aperture) : (s.setAperture a e).stopGrace = s.stopGrace := rfl
@[simp] theorem State.setAperture_graceTimer (s : State) (a : ApId) (e : Aperture) : (s.setAperture a e).graceTimer = s.graceTimer := rfl
@[simp] theorem State.setAperture_counters (s : State) (a : ApId) (e : Aperture) : (s.setAperture a e).counters = s.counters := rfl
@[simp] theorem State.setAperture_readData (s : State) (a : ApId) (e : Aperture) : (s.setAperture a e).readData = s.readData := rfl
@[simp] theorem State.setAperture_tags (s : State) (a : ApId) (e : Aperture) : (s.setAperture a e).tags = s.tags := rfl
@[simp] theorem State.setAperture_sent (s : State) (a : ApId) (e : Aperture) : (s.setAperture a e).sent = s.sent := rfl
@[simp] theorem State.setAperture_queues (s : State) (a : ApId) (e : Aperture) : (s.setAperture a e).queues = s.queues := rfl
@[simp] theorem State.setAperture_fetch (s : State) (a : ApId) (e : Aperture) : (s.setAperture a e).fetch = s.fetch := rfl
@[simp] theorem State.setAperture_currentLevel (s : State) (a : ApId) (e : Aperture) : (s.setAperture a e).currentLevel = s.currentLevel := rfl
@[simp] theorem State.setAperture_active (s : State) (a : ApId) (e : Aperture) : (s.setAperture a e).active = s.active := rfl
@[simp] theorem State.setAperture_stack (s : State) (a : ApId) (e : Aperture) : (s.setAperture a e).stack = s.stack := rfl
@[simp] theorem State.setAperture_startOrder (s : State) (a : ApId) (e : Aperture) : (s.setAperture a e).startOrder = s.startOrder := rfl
@[simp] theorem State.setAperture_segment (s : State) (a : ApId) (e : Aperture) : (s.setAperture a e).segment = s.segment := rfl
@[simp] theorem State.setAperture_waitingUpdate (s : State) (a : ApId) (e : Aperture) : (s.setAperture a e).waitingUpdate = s.waitingUpdate := rfl
@[simp] theorem State.setAperture_reserved (s : State) (a : ApId) (e : Aperture) : (s.setAperture a e).reserved = s.reserved := rfl
@[simp] theorem State.setAperture_occupied (s : State) (a : ApId) (e : Aperture) : (s.setAperture a e).occupied = s.occupied := rfl
@[simp] theorem State.setAperture_rings (s : State) (a : ApId) (e : Aperture) : (s.setAperture a e).rings = s.rings := rfl
@[simp] theorem State.setAperture_admin (s : State) (a : ApId) (e : Aperture) : (s.setAperture a e).admin = s.admin := rfl
@[simp] theorem State.setAperture_adminRing (s : State) (a : ApId) (e : Aperture) : (s.setAperture a e).adminRing = s.adminRing := rfl

@[simp] theorem State.setAperture_queue (s : State) (a : ApId) (e : Aperture) (i : WqId) : (s.setAperture a e).queue i = s.queue i := rfl
@[simp] theorem State.setAperture_ring (s : State) (a : ApId) (e : Aperture) (i : CqId) : (s.setAperture a e).ring i = s.ring i := rfl
@[simp] theorem State.setAperture_tag (s : State) (a : ApId) (e : Aperture) (i : TagId) : (s.setAperture a e).tag i = s.tag i := rfl

/-- Reading part `j` after replacing part `a`. -/
theorem State.setAperture_aperture (s : State) (a : ApId) (e : Aperture) (j : ApId) :
    (s.setAperture a e).aperture j = if j = a then e else s.aperture j := by
  simp only [State.aperture, State.setAperture, Fin.getElem_fin, Vector.getElem_set]
  by_cases h : j = a
  · simp [h]
  · have : ¬ a.val = j.val := fun e => h (Fin.ext e.symm)
    simp [h, this]

@[simp] theorem State.setAperture_aperture_self (s : State) (a : ApId) (e : Aperture) : (s.setAperture a e).aperture a = e := by
  simp [State.setAperture_aperture]

theorem State.setAperture_aperture_ne (s : State) (a : ApId) (e : Aperture) (j : ApId) (h : j ≠ a) :
    (s.setAperture a e).aperture j = s.aperture j := by
  simp [State.setAperture_aperture, h]

/-- Putting a part back as it stands changes nothing. -/
theorem State.setAperture_eq_self (s : State) (a : ApId) : s.setAperture a (s.aperture a) = s := by
  simp only [State.setAperture, State.aperture]
  congr
  apply Vector.ext
  intro k hk
  rw [Vector.getElem_set]
  split
  · next h => subst h; rfl
  · rfl

end Sys2Proof.Machine
end

