-- ==== Sys2Proof/Laws/Ops.lean ====
section
/-! SUPPORT. What the shared operations on the pending list, the staging slots and the admin completion can do. -/

namespace Sys2Proof.Machine

/-! ## Reservations -/

theorem removeHolder_length_le (h : Holder) (l : List Reservation) : (removeHolder h l).length ≤ l.length := by
  induction l with
  | nil => simp [removeHolder]
  | cons r rs ih => simp only [removeHolder]; split <;> simp_all; try omega

theorem removeHolder_length_ge (h : Holder) (l : List Reservation) : l.length ≤ (removeHolder h l).length + 1 := by
  induction l with
  | nil => simp
  | cons r rs ih => simp only [removeHolder]; split <;> simp_all; try omega

/-- A holder that holds nothing loses nothing. -/
theorem removeHolder_of_not_mem (h : Holder) (l : List Reservation) (hn : ∀ r ∈ l, r.holder ≠ h) : removeHolder h l = l := by
  induction l with
  | nil => rfl
  | cons r rs ih =>
    have h1 : r.holder ≠ h := hn r (by simp)
    simp [removeHolder, h1, ih fun x hx => hn x (by simp [hx])]

/-- The holders after a release are the holders before with one of `h` taken out. -/
theorem removeHolder_map (h : Holder) (l : List Reservation) :
    (removeHolder h l).map (fun r => r.holder) = (l.map fun r => r.holder).erase h := by
  induction l with
  | nil => rfl
  | cons r rs ih =>
    simp only [removeHolder, List.map_cons, List.erase_cons]
    by_cases hr : r.holder = h
    · simp [hr]
    · simp [hr, ih]

@[simp] theorem release_reserved (h : Holder) (s : State) : (release h s).reserved = removeHolder h s.reserved := rfl
@[simp] theorem reserve_reserved (h : Holder) (c : CqId) (s : State) : (reserve h c s).reserved = s.reserved ++ [⟨h, c⟩] := rfl

/-! ## Placement (R110): the three cases -/

theorem place_suppressed (h : Holder) (c : CqId) (e : Entry) (n : Bool) (s : State) :
    place h c e true n s = release h s := by
  simp [place]

theorem place_broken (h : Holder) (c : CqId) (e : Entry) (n : Bool) (s : State) (hb : (s.ring c).state = .broken) :
    place h c e false n s = (release h s).setRing c { s.ring c with discarded := bump (s.ring c).discarded } := by
  have h1 : ((release h s).ring c) = s.ring c := rfl
  simp [place, h1, hb]

theorem place_occupied (h : Holder) (c : CqId) (e : Entry) (n : Bool) (s : State) (hb : (s.ring c).state ≠ .broken) :
    place h c e false n s =
      { s with reserved := removeHolder h s.reserved, occupied := s.occupied ++ [⟨c, e, n, false⟩] } := by
  have h1 : ((release h s).ring c) = s.ring c := rfl
  simp only [place, h1, hb]
  rfl

/-- All that a placement can do. -/
theorem place_cases (h : Holder) (c : CqId) (e : Entry) (sup n : Bool) (s : State) :
    (sup = true ∧ place h c e sup n s = release h s)
    ∨ (sup = false ∧ (s.ring c).state = .broken
        ∧ place h c e sup n s = (release h s).setRing c { s.ring c with discarded := bump (s.ring c).discarded })
    ∨ (sup = false ∧ (s.ring c).state ≠ .broken
        ∧ place h c e sup n s =
            { s with reserved := removeHolder h s.reserved, occupied := s.occupied ++ [⟨c, e, n, false⟩] }) := by
  cases sup
  · by_cases hb : (s.ring c).state = .broken
    · exact .inr (.inl ⟨rfl, hb, place_broken h c e n s hb⟩)
    · exact .inr (.inr ⟨rfl, hb, place_occupied h c e n s hb⟩)
  · exact .inl ⟨rfl, place_suppressed h c e n s⟩

/-! ## Emptying a slot (R59, R63): what it can do -/

theorem emptySlot_cases (q : WqId) (s : State) :
    (((s.queue q).slot = .empty ∨ (s.queue q).slot = .filling true) ∧ emptySlot q s = s)
    ∨ ((∃ b, (s.queue q).slot = .full b) ∧ emptySlot q s = s.setQueue q { s.queue q with slot := .empty })
    ∨ ((s.queue q).slot = .filling false ∧ fetchWaitsFor s q = true
        ∧ emptySlot q s = { (release .fetch s).setQueue q { s.queue q with slot := .empty } with fetch := none })
    ∨ ((s.queue q).slot = .filling false ∧ fetchWaitsFor s q = false
        ∧ emptySlot q s = s.setQueue q { s.queue q with slot := .filling true }) := by
  rcases hs : (s.queue q).slot with _ | c | b
  · simp [emptySlot, hs]
  · cases c
    · cases hw : fetchWaitsFor s q <;> simp [emptySlot, hs, hw]
    · simp [emptySlot, hs]
  · simp [emptySlot, hs]

/-! ## Admin completion (R136) -/

/-- A completion placed on a CQ0 that is not BROKEN. -/
theorem completeAdmin_occupied (b : List Byte) (st : Status) (sub : Sub) (d : Nat) (s : State)
    (h0 : (s.ring 0).state ≠ .broken) :
    completeAdmin b st sub d s =
      { s with reserved := removeHolder .adminRecord s.reserved
               occupied := s.occupied ++ [⟨0, ⟨st, sub, 0, adminTag b, s.adminRing.head, 0, d⟩, false, false⟩]
               admin := .idle } := by
  rw [completeAdmin, place_occupied _ _ _ _ _ h0]

/-- A completion placed on a BROKEN CQ0 is discarded and counted. -/
theorem completeAdmin_broken (b : List Byte) (st : Status) (sub : Sub) (d : Nat) (s : State)
    (h0 : (s.ring 0).state = .broken) :
    completeAdmin b st sub d s =
      { s.setRing 0 { s.ring 0 with discarded := bump (s.ring 0).discarded } with
        reserved := removeHolder .adminRecord s.reserved, admin := .idle } := by
  rw [completeAdmin, place_broken _ _ _ _ _ h0]
  rfl

/-- A completion placed on a CQ0 that is not BROKEN frees no entry. -/
theorem freeEntries_completed (s : State) (l : List Occupied) (o : Occupied) (hl : l = s.occupied ++ [o]) :
    Config.pendingEntries - ((removeHolder .adminRecord s.reserved).length + l.length) ≤ freeEntries s := by
  have := removeHolder_length_ge .adminRecord s.reserved
  subst hl
  simp only [freeEntries, List.length_append, List.length_singleton]
  omega

/-! ## RESET_N (R180) -/

theorem unlessHeld_high {s : State} (f : State → State) (h : s.heldEvents = 0) : unlessHeld f s = f s := by
  simp [unlessHeld, h]

theorem unlessHeld_low {s : State} (f : State → State) {n : Nat} (h : s.heldEvents = n + 1) :
    unlessHeld f s = { s with heldEvents := n } := by
  simp [unlessHeld, h]

/-! ## Counters -/

theorem bumpBy_le (n k : Nat) : bumpBy n k ≤ Config.counterMax := by simp [bumpBy]
theorem bump_le (n : Nat) : bump n ≤ Config.counterMax := bumpBy_le n 1

end Sys2Proof.Machine
end

