-- ==== Sys2Proof/Laws/Port.lean ====
section
/-! SUPPORT. What the memory port's grants can do: they mark requests as issued and change nothing else. -/

namespace Sys2Proof.Machine

/-! ## OnlyIssues is reflexive and transitive -/

/-- The request timeout survives the forgetting of issues. -/
@[simp] theorem State.unissued_requestTimeout (s : State) : s.unissued.requestTimeout = s.requestTimeout := rfl

theorem OnlyIssues.refl (s : State) : OnlyIssues s s := ⟨rfl, ⟨[], by simp⟩, fun _ => .inl rfl⟩

theorem OnlyIssues.requestTimeout {a b : State} (h : OnlyIssues a b) : b.requestTimeout = a.requestTimeout := by
  have := congrArg State.requestTimeout h.1
  simpa using this

theorem OnlyIssues.trans {a b c : State} (h : OnlyIssues a b) (k : OnlyIssues b c) : OnlyIssues a c := by
  refine ⟨k.1.trans h.1, ?_, fun t => ?_⟩
  · obtain ⟨l, hl⟩ := h.2.1
    obtain ⟨m, hm⟩ := k.2.1
    exact ⟨l ++ m, by rw [hm, hl, List.append_assoc]⟩
  · rcases k.2.2 t with hk | ⟨hf, o, kd, ad, n, hk⟩
    · rw [hk]; exact h.2.2 t
    · rcases h.2.2 t with hh | ⟨_, o', kd', ad', n', hh⟩
      · exact .inr ⟨by rw [← hh, hf], o, kd, ad, n, by rw [hk, OnlyIssues.requestTimeout h]⟩
      · rw [hh] at hf; cases hf

/-- What the forgetting of issues leaves as it is, field by field. -/
theorem OnlyIssues.fields {a b : State} (h : OnlyIssues a b) :
    b.pending = a.pending ∧ b.run = a.run ∧ b.notifyEnable = a.notifyEnable ∧ b.rootLo = a.rootLo ∧ b.rootHi = a.rootHi
    ∧ b.flags = a.flags ∧ b.engine = a.engine ∧ b.cause = a.cause ∧ b.rootInUse = a.rootInUse
    ∧ b.stopGrace = a.stopGrace ∧ b.graceTimer = a.graceTimer ∧ b.counters = a.counters ∧ b.readData = a.readData
    ∧ b.queues = a.queues ∧ b.currentLevel = a.currentLevel ∧ b.active = a.active ∧ b.stack = a.stack
    ∧ b.startOrder = a.startOrder ∧ b.apertures = a.apertures ∧ b.waitingUpdate = a.waitingUpdate
    ∧ b.reserved = a.reserved ∧ b.rings = a.rings ∧ b.adminRing = a.adminRing ∧ b.heldEvents = a.heldEvents
    ∧ b.resetTurn = a.resetTurn ∧ b.claimDeferred = a.claimDeferred ∧ b.claimTurn = a.claimTurn := by
  have h := h.1
  unfold State.unissued at h
  injection h
  simp_all

theorem OnlyIssues.queue {a b : State} (h : OnlyIssues a b) (q : WqId) : b.queue q = a.queue q := by
  have := OnlyIssues.fields h
  simp [State.queue, this]

theorem OnlyIssues.ring {a b : State} (h : OnlyIssues a b) (c : CqId) : b.ring c = a.ring c := by
  have := OnlyIssues.fields h
  simp [State.ring, this]

/-! ## One grant -/

theorem firstWaiting_progress (k : Nat) (l : List SegRequest) (i : Nat) (r : SegRequest)
    (h : firstWaiting k l = some (i, r)) : k ≤ i ∧ l[i - k]? = some r ∧ r.progress = .waiting := by
  induction l generalizing k with
  | nil => simp [firstWaiting] at h
  | cons x xs ih =>
    unfold firstWaiting at h
    split at h
    · next hw => cases h; simpa using hw
    · obtain ⟨h1, h2, h3⟩ := ih _ h
      refine ⟨by omega, ?_, h3⟩
      rw [show i - k = (i - (k + 1)) + 1 by omega]
      simpa using h2

theorem firstWaitingWrite_progress (k : Nat) (l : List AdminWrite) (i : Nat) (r : AdminWrite)
    (h : firstWaitingWrite k l = some (i, r)) : k ≤ i ∧ l[i - k]? = some r ∧ r.progress = .waiting := by
  induction l generalizing k with
  | nil => simp [firstWaitingWrite] at h
  | cons x xs ih =>
    unfold firstWaitingWrite at h
    split at h
    · next hw => cases h; simpa using hw
    · obtain ⟨h1, h2, h3⟩ := ih _ h
      refine ⟨by omega, ?_, h3⟩
      rw [show i - k = (i - (k + 1)) + 1 by omega]
      simpa using h2

/-- Marking the first entry of a ring as in flight changes only that mark. -/
theorem markInFlight_unissued (c : CqId) (l : List Occupied) :
    (markInFlight c l).map (fun o => { o with inFlight := false }) = l.map fun o => { o with inFlight := false } := by
  induction l with
  | nil => rfl
  | cons o os ih => simp only [markInFlight]; split <;> simp [ih]

/-- A change of one element that a map does not see. -/
theorem map_modify_eq {α β : Type} (f : α → β) (g : α → α) (l : List α) (k : Nat)
    (h : ∀ x, l[k]? = some x → f (g x) = f x) : (l.modify k g).map f = l.map f := by
  apply List.ext_getElem?
  intro i
  simp only [List.getElem?_map, List.getElem?_modify]
  by_cases hi : k = i
  · subst hi
    rcases hx : l[k]? with _ | x
    · simp
    · simp [h x hx]
  · simp [hi]

/-- What each client's ask says of its unit. -/
theorem nextGrant_owner {s : State} {a : Ask} (h : nextGrant s = some a) :
    match a.owner with
    | .completion _ => True
    | .rootRead => s.rootRead = .waiting
    | .adminRecord => ∃ i, s.admin = .fetching i false
    | .adminWrite k => ∃ b ws w, s.admin = .executing b (.writing ws none) ∧ ws[k]? = some w ∧ w.progress = .waiting
    | .fetch => ∃ f, s.fetch = some f ∧ f.issued = false
    | .mover k => ∃ g r, s.segment = some g ∧ g.requests[k]? = some r ∧ r.progress = .waiting := by
  unfold nextGrant at h
  split at h
  · cases h
  · split at h
    · next a' ha =>
      cases h
      unfold completionAsk at ha
      split at ha
      · cases ha
      · split at ha
        · cases ha
        · cases ha; trivial
    · split at h
      · next a' ha =>
        cases h
        unfold adminAsk at ha
        split at ha
        · next hr => cases ha; exact hr
        · split at ha
          · next i hi => cases ha; exact ⟨i, hi⟩
          · next b ws hw =>
            split at ha
            · next k w hk =>
              cases ha
              obtain ⟨_, h2, h3⟩ := firstWaitingWrite_progress 0 ws k w hk
              exact ⟨b, ws, w, hw, by simpa using h2, h3⟩
            · cases ha
          · cases ha
      · split at h
        · next a' ha =>
          cases h
          unfold fetchAsk at ha
          split at ha
          · next f hf =>
            split at ha
            · cases ha
            · next hi => cases ha; exact ⟨f, hf, by simpa using hi⟩
          · cases ha
        · split at h
          · unfold moverAsk at h
            split at h
            · next g hg =>
              split at h
              · cases h
              · split at h
                · next k q hk =>
                  cases h
                  obtain ⟨_, h2, h3⟩ := firstWaiting_progress 0 g.requests k q hk
                  exact ⟨g, q, hg, by simpa using h2, h3⟩
                · cases h
            · cases h
          · cases h

/-- The tags and what was sent are no part of the forgotten state. -/
theorem unissued_of_port (s : State) (tg : Vector TagState 32) (l : List Request) :
    ({ s with tags := tg, sent := l } : State).unissued = s.unissued := rfl

theorem markIssued_unissued {s : State} {a : Ask} (h : nextGrant s = some a) (tg : Vector TagState 32) (l : List Request) :
    (markIssued a.owner { s with tags := tg, sent := l }).unissued = s.unissued := by
  have ho := nextGrant_owner h
  cases hown : a.owner with
  | completion c =>
    simp only [markIssued, State.unissued, markInFlight_unissued]
  | adminRecord =>
    rw [hown] at ho
    obtain ⟨i, hi⟩ := ho
    simp [markIssued, hi, State.unissued, AdminState.unissued]
  | rootRead =>
    rw [hown] at ho
    simp only at ho
    simp [markIssued, State.unissued, ho]
  | adminWrite k =>
    rw [hown] at ho
    obtain ⟨b, ws, w, hb, hk, hw⟩ := ho
    have : (ws.modify k fun w => { w with progress := Progress.issued }).map
        (fun w => { w with progress := w.progress.unissued }) = ws.map fun w => { w with progress := w.progress.unissued } := by
      apply map_modify_eq
      intro x hx
      rw [hk] at hx
      cases hx
      simp [Progress.unissued, hw]
    simp [markIssued, hb, State.unissued, AdminState.unissued, this]
  | fetch =>
    rw [hown] at ho
    obtain ⟨f, hf, _⟩ := ho
    simp [markIssued, hf, State.unissued]
  | mover k =>
    rw [hown] at ho
    obtain ⟨g, r, hg, hk, hw⟩ := ho
    have : (g.requests.modify k fun q => { q with progress := Progress.issued }).map
        (fun q => { q with progress := q.progress.unissued })
          = g.requests.map fun q => { q with progress := q.progress.unissued } := by
      apply map_modify_eq
      intro x hx
      rw [hk] at hx
      cases hx
      simp [Progress.unissued, hw]
    simp [markIssued, hg, State.unissued, Segment.unissued, this]

/-- The note that a request is out leaves the port's own state alone. -/
theorem markIssued_port (o : Owner) (s : State) : (markIssued o s).tags = s.tags ∧ (markIssued o s).sent = s.sent := by
  cases o <;> simp only [markIssued] <;> (try split) <;> simp

/-- One grant only issues. -/
theorem grantOne_onlyIssues {s s' : State} (h : grantOne s = some s') : OnlyIssues s s' := by
  unfold grantOne at h
  split at h
  · next a t ha ht =>
    cases h
    have hfree : s.tag t = .free := by
      have := List.find?_some ht
      simpa using this
    refine ⟨markIssued_unissued ha _ _, ⟨_, (markIssued_port _ _).2⟩, fun i => ?_⟩
    have hp : (issue t a s).tags = (s.setTag t (.inUse a.owner a.kind a.address a.length s.requestTimeout)).tags :=
      (markIssued_port _ _).1
    have ht' : (issue t a s).tag i = (s.setTag t (.inUse a.owner a.kind a.address a.length s.requestTimeout)).tag i := by
      simp only [State.tag, hp]
    rw [ht', State.setTag_tag]
    by_cases hi : i = t
    · subst hi
      exact .inr ⟨hfree, a.owner, a.kind, a.address, a.length, by simp⟩
    · exact .inl (by simp [hi])
  · cases h

theorem grantLoop_onlyIssues (n : Nat) (s : State) : OnlyIssues s (grantLoop n s) := by
  induction n generalizing s with
  | zero => exact OnlyIssues.refl s
  | succ n ih =>
    unfold grantLoop
    split
    · next s' h => exact (grantOne_onlyIssues h).trans (ih s')
    · exact OnlyIssues.refl s

/-- All that serving the waiting clients can do (R93 to R95). -/
theorem grantAll_onlyIssues (s : State) : OnlyIssues s (grantAll s) := grantLoop_onlyIssues 32 s

end Sys2Proof.Machine
end

