-- ==== Sys2Proof/Laws/Scheduler.lean ====
section
/-! SUPPORT. What the scheduler's operations leave alone, when selection does nothing, how the claim of a freed entry and a stop's
progress come out, and what comes before an event. -/

namespace Sys2Proof.Machine

/-! ## The part of the state no scheduling operation touches -/

/-- The register port, engine control, the memory port and the admin ring. -/
structure HostPart where
  pending : List Instr
  heldEvents : Nat
  resetTurn : Nat
  run : Bool
  notifyEnable : Bool
  rootLo : Reg
  rootHi : Reg
  flags : StickyFlags
  engine : EngineState
  cause : FailCause
  rootInUse : BitVec 64
  rootRead : RootRead
  requestTimeout : Nat
  stopGrace : Nat
  graceTimer : GraceTimer
  counters : EngineCounters
  readData : Reg
  tags : Vector TagState 32
  sent : List Request
  adminRing : AdminRing

/-- That part of a state. -/
def State.hostPart (s : State) : HostPart :=
  { pending := s.pending, heldEvents := s.heldEvents, resetTurn := s.resetTurn, run := s.run,
    notifyEnable := s.notifyEnable, rootLo := s.rootLo, rootHi := s.rootHi,
    flags := s.flags, engine := s.engine, cause := s.cause, rootInUse := s.rootInUse, rootRead := s.rootRead,
    requestTimeout := s.requestTimeout, stopGrace := s.stopGrace, graceTimer := s.graceTimer, counters := s.counters,
    readData := s.readData, tags := s.tags, sent := s.sent, adminRing := s.adminRing }

@[simp] theorem place_hostPart (h : Holder) (c : CqId) (e : Entry) (x n : Bool) (s : State) :
    (place h c e x n s).hostPart = s.hostPart := by
  rcases place_cases h c e x n s with ⟨_, hp⟩ | ⟨_, _, hp⟩ | ⟨_, _, hp⟩ <;> rw [hp] <;> rfl

@[simp] theorem emptySlot_hostPart (q : WqId) (s : State) : (emptySlot q s).hostPart = s.hostPart := by
  rcases emptySlot_cases q s with ⟨_, h⟩ | ⟨_, h⟩ | ⟨_, _, h⟩ | ⟨_, _, h⟩ <;> rw [h] <;> rfl

@[simp] theorem completeAdmin_hostPart (b : List Byte) (st : Status) (sub : Sub) (d : Nat) (s : State) :
    (completeAdmin b st sub d s).hostPart = s.hostPart :=
  place_hostPart ..

@[simp] theorem setQueue_hostPart (q : WqId) (d : Queue) (s : State) : (s.setQueue q d).hostPart = s.hostPart := rfl

@[simp] theorem finishAbort_hostPart (b : List Byte) (q : WqId) (sub : Sub) (s : State) :
    (finishAbort b q sub s).hostPart = s.hostPart := by
  simp [finishAbort]

@[simp] theorem placeNotice_hostPart (q : WqId) (n : NextState) (s : State) :
    (placeNotice q n s).hostPart = s.hostPart := by
  simp [placeNotice]

@[simp] theorem endContext_hostPart (c : Context) (st : Status) (sub : Sub) (p d : Nat) (b : Bool) (s : State) :
    (endContext c st sub p d b s).hostPart = s.hostPart := by
  unfold endContext
  dsimp only
  split <;> split <;> simp

theorem endActive_hostPart (st : Status) (sub : Sub) (p d : Nat) (s : State) :
    (endActive st sub p d s).hostPart = s.hostPart := by
  unfold endActive
  split
  · rfl
  · dsimp only
    split
    · rw [finishAbort_hostPart, endContext_hostPart]; rfl
    · rw [endContext_hostPart]; rfl

theorem makeActive_hostPart (q : WqId) (s : State) : (makeActive q s).hostPart = s.hostPart := by
  unfold makeActive
  dsimp only
  split <;> rfl

theorem beginSegment_hostPart (s : State) : (beginSegment s).1.hostPart = s.hostPart := by
  unfold beginSegment
  split
  · rfl
  · split
    · rfl
    · exact endActive_hostPart ..

theorem startRecord_hostPart (q : WqId) (s : State) : (startRecord q s).1.hostPart = s.hostPart := by
  unfold startRecord
  dsimp only
  split
  · exact makeActive_hostPart q s
  · split
    · rw [endActive_hostPart, makeActive_hostPart]
    · rw [endActive_hostPart, makeActive_hostPart]
    · rw [beginSegment_hostPart, makeActive_hostPart]

theorem resumeContext_hostPart (c : Context) (rest : List Context) (s : State) :
    (resumeContext c rest s).1.hostPart = s.hostPart := by
  unfold resumeContext
  rw [beginSegment_hostPart]
  rfl

theorem selectLoop_hostPart (n : Nat) (s : State) : (selectLoop n s).hostPart = s.hostPart := by
  induction n generalizing s with
  | zero => rfl
  | succ n ih =>
    unfold selectLoop
    split
    · split
      · dsimp only
        split
        · rw [ih, startRecord_hostPart]
        · exact startRecord_hostPart ..
      · dsimp only
        split
        · rw [ih, resumeContext_hostPart]
        · exact resumeContext_hostPart ..
      · rfl
    · rfl

/-- Selection changes no host part. -/
theorem select_hostPart (s : State) : (select s).hostPart = s.hostPart := selectLoop_hostPart _ _

theorem claimFreed_hostPart (s : State) : (claimFreed s).hostPart = s.hostPart := by
  unfold claimFreed
  split
  · dsimp only
    split
    · exact select_hostPart _
    · rfl
  · exact select_hostPart _

theorem selectOnFree_hostPart (a s : State) : (selectOnFree a s).hostPart = s.hostPart := by
  unfold selectOnFree
  split
  · exact claimFreed_hostPart s
  · rfl

theorem selectOnIdle_hostPart (a s : State) : (selectOnIdle a s).hostPart = s.hostPart := by
  unfold selectOnIdle
  split
  · rfl
  · exact select_hostPart s

theorem selectAfter_hostPart (r : State × Bool) : (selectAfter r).hostPart = r.1.hostPart := by
  unfold selectAfter
  split
  · exact select_hostPart _
  · rfl

theorem boundaryRule_hostPart (c : Context) (o : Outcome) (s : State) : (boundaryRule c o s).hostPart = s.hostPart := by
  unfold boundaryRule
  split
  · rw [select_hostPart, endActive_hostPart]
  · rw [select_hostPart, endActive_hostPart]
  · rw [select_hostPart, endActive_hostPart]
  · rw [select_hostPart, endActive_hostPart]
  · dsimp only
    split
    · rw [select_hostPart, endActive_hostPart]; rfl
    · split
      · rw [select_hostPart, endActive_hostPart]; rfl
      · split
        · rw [endActive_hostPart]; rfl
        · split
          · rw [selectAfter_hostPart, startRecord_hostPart]; rfl
          · rw [selectAfter_hostPart, beginSegment_hostPart]; rfl

theorem applyWaiting_hostPart (s : State) : (applyWaiting s).hostPart = s.hostPart := by
  unfold applyWaiting applyUpdate
  split
  · dsimp only
    split <;> rfl
  · rfl

theorem segmentBoundary_hostPart (o : Outcome) (s : State) : (segmentBoundary o s).hostPart = s.hostPart := by
  unfold segmentBoundary
  split
  · rfl
  · dsimp only
    split
    · rw [selectOnFree_hostPart, completeAdmin_hostPart, boundaryRule_hostPart]
      exact applyWaiting_hostPart s
    · rw [boundaryRule_hostPart]
      exact applyWaiting_hostPart s

theorem moverTakes_hostPart (k : Nat) (r : Resolution) (s : State) : (moverTakes k r s).hostPart = s.hostPart := by
  unfold moverTakes
  split
  · split
    · rfl
    · exact segmentBoundary_hostPart ..
  · rfl

/-! ## When selection does nothing (R31) -/

/-- Selection has at least one turn. -/
theorem select_eq (s : State) : select s = selectLoop ((8 + s.stack.length) + 1) { s with claimDeferred := false } := by
  unfold select
  congr 1
  omega

theorem select_of_active {s : State} (h : s.active ≠ none) : select s = { s with claimDeferred := false } := by
  rw [select_eq]
  unfold selectLoop
  simp [h]

theorem select_of_not_running {s : State} (h : s.engine ≠ .running) : select s = { s with claimDeferred := false } := by
  rw [select_eq]
  unfold selectLoop
  simp [h]

/-! ## Claims of a freed entry (R109) -/

/-- All that the claim of a freed entry can do. -/
theorem claimFreed_cases (s : State) :
    claimFreed s = select s
    ∨ (schedulerClaims s = true ∧ rivalClaims s = true
        ∧ (claimFreed s = select { s with claimTurn := s.claimTurn + 1 }
          ∨ claimFreed s = { s with claimTurn := s.claimTurn + 1, claimDeferred := true })) := by
  unfold claimFreed
  split
  · next h =>
    simp only [Bool.and_eq_true] at h
    refine .inr ⟨h.1, h.2, ?_⟩
    dsimp only
    split
    · exact .inl rfl
    · exact .inr rfl
  · exact .inl rfl

theorem selectOnFree_of_le {a s : State} (h : freeEntries s ≤ freeEntries a) : selectOnFree a s = s := by
  unfold selectOnFree
  simp [Nat.not_lt.mpr h]

theorem selectOnIdle_of_le {a s : State} (h : freeEntries s ≤ freeEntries a) : selectOnIdle a s = select s := by
  unfold selectOnIdle
  simp [Nat.not_lt.mpr h]

theorem selectOnIdle_of_lt {a s : State} (h : freeEntries a < freeEntries s) : selectOnIdle a s = s := by
  simp [selectOnIdle, h]

theorem selectOnFree_of_lt {a s : State} (h : freeEntries a < freeEntries s) : selectOnFree a s = claimFreed s := by
  simp [selectOnFree, h]

/-! ## The end of a step (R164, R165) -/

theorem stopProgress_of_not_stopping {s : State} (h : s.engine ≠ .stopping) : stopProgress s = s := by
  simp [stopProgress, h]

theorem finishStep_of_not_stopping {s : State} (h : s.engine ≠ .stopping) : finishStep s = grantAll s := by
  simp [finishStep, stopProgress_of_not_stopping h]

/-! ## What comes before an event (logs 5, 6) -/

theorem settleRecord_of_none {s : State} (h : ∀ b v, s.admin ≠ .executing b (.checked v)) : settleRecord s = s := by
  unfold settleRecord
  split
  · next b v hb => exact absurd hb (h b v)
  · rfl

theorem settleRecord_checked {s : State} {b : List Byte} {v : Option (Status × Sub)} (h : s.admin = .executing b (.checked v)) :
    settleRecord s = executeRecord v carryOut b s := by
  simp [settleRecord, h]

theorem settleDeferred_of_not {s : State} (h : s.claimDeferred = false) : settleDeferred s = s := by
  simp [settleDeferred, h]

/-- When the look of a waiting DISABLE QUEUE is due. -/
theorem lookDue_iff (s : State) :
    lookDue s = true ↔ ∃ b q, s.admin = .executing b (.waitEntry q) ∧ drainNeedsEntry s q = false := by
  unfold lookDue
  split
  · next b q h => simp [h]
  · next h => simp; intro b q hb; exact absurd hb (h b q)

theorem drainNeedsEntry_iff (s : State) (q : WqId) :
    drainNeedsEntry s q = true ↔
      ((s.queue q).state = .running ∨ (s.queue q).state = .suspended) ∧ (s.queue q).drain = false ∧ s.engine ≠ .stopping := by
  simp [drainNeedsEntry, and_assoc]

/-- A DISABLE QUEUE must wait exactly while it needs an entry and none is free. -/
theorem applyDisable_eq_none_iff (b : List Byte) (q : WqId) (s : State) :
    applyDisable b q s = none ↔ drainNeedsEntry s q = true ∧ hasFree s = false := by
  unfold applyDisable
  rw [drainNeedsEntry_iff]
  cases hs : (s.queue q).state <;> cases hd : (s.queue q).drain <;> by_cases he : s.engine = .stopping <;>
    simp [hs, hd, he]

/-- A look that is due is made and leaves no DISABLE QUEUE waiting. -/
theorem lookAgain_of_due {s : State} (h : lookDue s = true) : (lookAgain s).isSome = true := by
  obtain ⟨b, q, hb, hn⟩ := (lookDue_iff s).mp h
  cases ha : applyDisable b q s with
  | some t => simp [lookAgain, hb, ha]
  | none => exact absurd ((applyDisable_eq_none_iff b q s).mp ha).1 (by simp [hn])

theorem settleLook_of_not {s : State} (h : lookDue s = false) : settleLook s = s := by
  simp [settleLook, h]

/-- With nothing due, an event finds the machine as it stands. -/
theorem settleDue_of_nothingDue {s : State} (h : NothingDue s) : settleDue s = s := by
  have hl : lookDue s = false := by
    rw [Bool.eq_false_iff, Ne, lookDue_iff]
    rintro ⟨b, q, hb, hn⟩
    simp [(drainNeedsEntry_iff s q).mpr (h.2.2 b q hb)] at hn
  rw [settleDue, settleRecord_of_none h.2.1, settleDeferred_of_not h.1, settleLook_of_not hl, settleDeferred_of_not h.1]

/-- An admin row executes exactly the checked record of its opcode. -/
theorem adminRow_checked {mine : Nat → Bool} {run : List Byte → State → State} {s : State} {b : List Byte}
    {v : Option (Status × Sub)} (h : s.admin = .executing b (.checked v)) (hm : mine (adminOpcode b) = true) :
    adminRow mine run s = executeRecord v run b s := by
  simp [adminRow, h, hm]

theorem adminRow_other {mine : Nat → Bool} {run : List Byte → State → State} {s : State}
    (h : ∀ b v, s.admin = .executing b (.checked v) → mine (adminOpcode b) = false) : adminRow mine run s = settleDue s := by
  unfold adminRow
  split
  · next b v hb => simp [h b v hb]
  · rfl

end Sys2Proof.Machine
end

