-- ==== Sys2Proof/WellFormed.lean ====
section
/-! DEFINITION. When a command's operands are such as its row of the table can carry. Conditions on the state (a tag that is
IN_USE, a RUN that changes) are no part of this: the meanings look at the state. -/

namespace Sys2Proof

/-- A response carries between 1 and 64 bytes of data (R89). -/
def dataLengthOk (bytes : List Byte) : Bool := 1 ≤ bytes.length && bytes.length ≤ 64

/-- The same for a result of any kind. -/
def resultOk : Result → Bool
  | .data b => dataLengthOk b
  | .ack => true
  | .error => true

/-- A 32-bit access aligned to one of the eight registers (R170, R178). -/
def accessWellFormed (a : Access) : Bool :=
  a.bytes == 4 && a.offset % 4 == 0 && decide (a.offset < 32)

/-- The queue number of a POST value, bits 31 to 24 (R178). -/
def postQueueField (v : Reg) : Nat := (v.extractLsb' 24 8).toNat

/-- The operands a row can carry. -/
def Instr.wellFormed : Instr → Bool
  | .powerOnReset => true
  | .softReset v => v.getLsbD 2
  | .runWritten1 v => v.getLsbD 0 && !v.getLsbD 2
  | .runWritten0 v => !v.getLsbD 0 && !v.getLsbD 2
  | .notifyEnable v => !v.getLsbD 2
  | .flagsClear _ => true
  | .registerWrite off _ => off == 0x00 || off == 0x08 || off == 0x10 || off == 0x14
  | .misusedAccess a => !accessWellFormed a
  | .postWork v => postQueueField v != 0
  | .postAdmin v => postQueueField v == 0
  | .cqAck _ => true
  | .unknownOpcode => true
  | .setEngine => true
  | .configureQueue => true
  | .enableQueue => true
  | .disableQueue => true
  | .disableQueueApplied => true
  | .abortQueue => true
  | .resumeQueue => true
  | .configureCq => true
  | .loadAperture => true
  | .clearAperture => true
  | .readStatistics => true
  | .queryQueue => true
  | .mark => true
  | .takeUp => true
  | .fetchIssue => true
  | .dataOrAckResponse t (.data b) => decide (t.toNat < 32) && dataLengthOk b
  | .dataOrAckResponse t .ack => decide (t.toNat < 32)
  | .errorResponse t => decide (t.toNat < 32)
  | .requestTimeout _ => true
  | .lateResponse t r => decide (t.toNat < 32) && resultOk r
  | .strayResponse _ r => resultOk r
  | .ageTimerExpiry _ => true
  | .stopGraceExpiry => true

end Sys2Proof
end

