-- ==== Sys2Proof/Tests/Slice0.lean ====
section
/-! SUPPORT. Tests: one step on a small state, expected values from the spec's rules and examples; an ill-formed command for each
check of WellFormed; and for each statement with hypotheses a state and operands that meet them (`witness_…`). -/

open Sys2Proof Sys2Proof.Machine

namespace Sys2Proof.Tests

set_option Elab.async false

/-! ## Builders -/

/-- The state after a command (here every command answers next). -/
def after (c : Instr) (s : State) : State := match exec c s with | .next t => t | _ => s

/-- 64 bytes from fields given as width and value, zero beyond them. -/
def record (fields : List (Nat × Nat)) : List Byte := ((fields.flatMap fun p => leBytes p.1 p.2) ++ zeros 64).take 64

/-- An admin record (R174). -/
def adminRecord (op index options : Nat) (params : List (Nat × Nat)) : List Byte :=
  record ([(1, op), (1, index), (2, options), (2, 0x55), (2, 0)] ++ params)

/-- A work record of type, width, flags, source, destination, row length, rows, strides and pattern (R173); tag 7. -/
def workBytes (type width flags source dest rowLength rows sourceStride destStride pattern : Nat) : List Byte :=
  record [(1, type), (1, width), (2, flags), (2, 7), (2, 0), (6, source), (2, 0), (6, dest), (2, 0), (2, rowLength), (2, rows),
          (4, 0), (4, sourceStride), (4, destStride), (8, pattern)]

/-- The COPY of chapter 1's worked example: width 4, 0x10380 to 0x40C10, two rows of 1000, strides 4096 and 1024. -/
def copyBytes : List Byte := workBytes 1 4 0 0x10380 0x40C10 1000 2 4096 1024 0

/-- A ring of 16 entries with threshold 4. -/
def ringOn : Ring := { Ring.reset with state := .active, base := 0x9000, size := 16, phase := true, threshold := 4 }

/-- An IDLE queue with a ring of 8 records. -/
def queueOn (level : Nat) (c : CqId) : Queue :=
  { Queue.reset with ringBase := 0x2000, ringSize := 8, level := level, ring := some c, state := .idle }

/-- A RUNNING engine: four active rings, WQ1 at level 3, WQ2 at level 6, the admin ring of chapter 7's example with one record posted,
a read-write aperture over the low 16 MiB. -/
def running : State :=
  { State.reset with
    run := true, engine := .running, adminRing := ⟨0x7F000, 8, 3, 4⟩
    rings := Vector.replicate 4 ringOn
    queues := (State.reset.queues.set 0 (queueOn 3 1)).set 1 (queueOn 6 2)
    apertures := State.reset.apertures.set 0 ⟨true, .direct, 24, 0, 0, true, true, 0xFF⟩ }

/-- A state in which the admin unit has just taken and checked a record (R132). -/
def checkedIn (b : List Byte) (s : State) : State := { s with admin := .executing b (.checked (adminCheck s b)) }

/-- The running engine with an admin record just taken and checked. -/
def taken (b : List Byte) : State := checkedIn b { running with reserved := [⟨.adminRecord, 0⟩] }

/-- The same with another descriptor for a queue. -/
def takenWith (b : List Byte) (q : WqId) (d : Queue) : State :=
  checkedIn b { running.setQueue q d with reserved := [⟨.adminRecord, 0⟩] }

/-- `Ready` as a value. -/
def isReady (s : State) : Bool :=
  s.heldEvents == 0 && !s.claimDeferred && !lookDue s && (match s.admin with | .executing _ (.checked _) => false | _ => true)

/-- The value says what `Ready` says. -/
theorem ready_of_isReady {s : State} (h : isReady s = true) : Ready s := by
  simp only [isReady, Bool.and_eq_true, beq_iff_eq, Bool.not_eq_true'] at h
  refine ⟨h.1.1.1, h.1.1.2, fun b v hb => ?_, fun b q hb => (drainNeedsEntry_iff s q).mp ?_⟩
  · simp [hb] at h
  · simpa [lookDue, hb] using h.1.2

/-- A context of WQ1 at the start of the example's COPY. -/
def copyContext : Context :=
  { queue := 0, level := 3, record := workRecord copyBytes, index := 0, row := 0, offset := 0, done := 0, ring := 1 }

/-- WQ1 RUNNING with that context active, no segment in flight. -/
def busy : State :=
  { running.setQueue 0 { queueOn 3 1 with state := .running, head := 1, tail := 1 } with
    active := some copyContext, currentLevel := 3, reserved := [⟨.context 0, 1⟩] }

/-- One write of 16 bytes, the whole of a segment. -/
def lastWrite : Segment :=
  { length := 16, source := none, dest := some ⟨0x100, 0x100, 16⟩, readData := [], failure := none, phase := .writing
    requests := [⟨.dest, .write, 0x100, 0x100, 16, .issued, zeros 16⟩] }

/-- One read of 16 bytes, the whole of a COPY segment. -/
def onlyRead : Segment :=
  { length := 16, source := some ⟨0x100, 0x100, 16⟩, dest := some ⟨0x200, 0x200, 16⟩, readData := [], failure := none
    phase := .reading, requests := [⟨.source, .read, 0x100, 0x100, 16, .issued, []⟩] }

/-- Two reads out. -/
def twoReads : Segment :=
  { onlyRead with requests := [⟨.source, .read, 0x100, 0x100, 16, .issued, []⟩, ⟨.source, .read, 0x140, 0x140, 16, .issued, []⟩] }

/-- Tag 5 in use. -/
def tagged (o : Owner) (k : ReqKind) (length : Nat) (s : State) : State := s.setTag 5 (.inUse o k 0 length 1000)

/-- A work entry bound for CQ1. -/
def okEntry (out : Bool) : Occupied := ⟨1, ⟨.ok, .none, 1, 7, 1, 16, 0⟩, false, out⟩

/-- The example's COPY, cut to one segment of 16 bytes and one row. -/
def shortContext : Context := { copyContext with record := workRecord (workBytes 1 4 0 0x100 0x200 16 1 0 0 0) }

/-! ## WellFormed refuses ill-formed commands -/

theorem test_soft_reset_needs_its_bit : (Instr.softReset 3).wellFormed = false := by decide
theorem test_run_1_needs_run : (Instr.runWritten1 2).wellFormed = false := by decide
theorem test_run_0_needs_run_0 : (Instr.runWritten0 1).wellFormed = false := by decide
theorem test_notify_enable_is_no_soft_reset : (Instr.notifyEnable 4).wellFormed = false := by decide
theorem test_register_write_of_post_has_its_own_row : (Instr.registerWrite 0x18 0).wellFormed = false := by decide
theorem test_misused_access_is_not_well_formed : (Instr.misusedAccess ⟨true, 4, 0x1C, 0⟩).wellFormed = false := by decide
theorem test_post_work_not_queue_0 : (Instr.postWork 0x00000001).wellFormed = false := by decide
theorem test_post_admin_only_queue_0 : (Instr.postAdmin 0x01000001).wellFormed = false := by decide
theorem test_data_response_of_no_bytes : (Instr.dataOrAckResponse 0 (.data [])).wellFormed = false := by decide
theorem test_response_tag_above_31 : (Instr.dataOrAckResponse 32 .ack).wellFormed = false := by decide
theorem test_error_tag_above_31 : (Instr.errorResponse 32).wellFormed = false := by decide
theorem test_late_tag_above_31 : (Instr.lateResponse 255 .ack).wellFormed = false := by decide
theorem test_stray_of_65_bytes : (Instr.strayResponse 0 (.data (zeros 65))).wellFormed = false := by decide

/-! ## One step each -/

/-- R178: STATUS reads 0 after reset; ID holds part, family member and revision. -/
theorem test_registers_after_reset : registerValue State.reset 0x08 = 0 ∧ registerValue State.reset 0x00 = 0x04170101 := by
  decide +kernel

/-- R167: every register takes its power-on value. -/
theorem test_power_on_reset : (after .powerOnReset busy).engine = .stopped ∧ (after .powerOnReset busy).active = none := by
  decide +kernel

/-- R180: while RESET_N is low a write and a stray response are not taken, and a read answers 0. -/
theorem test_reset_held :
    let s : State := { State.reset with heldEvents := 3 }
    after (.strayResponse 40 .ack) (after (.registerWrite 0x10 5) s) = { State.reset with heldEvents := 1 }
      ∧ readRegister s ⟨false, 4, 0x00, 0⟩ = 0 := by
  decide +kernel

/-- R104, R166: an IN_USE tag becomes STALE, ROOT_LO is kept. -/
theorem test_soft_reset :
    let t := after (.softReset 4) { tagged .fetch .read 64 busy with rootLo := 0x40 }
    t.tag 5 = .stale ∧ t.rootLo = 0x40 ∧ t.engine = .stopped := by
  decide +kernel

/-- R158: from STOPPED the root block is read at the root address with the first tag. -/
theorem test_run_written_1 :
    let t := after (.runWritten1 3) { State.reset with rootLo := 0x80 }
    t.engine = .starting ∧ t.rootRead = .issued ∧ t.sent = [⟨0, .read, 0x80, 64, []⟩] := by
  decide +kernel

/-- R158: an address with a bit of ROOT_HI above bit 15 fails the start. -/
theorem test_run_written_1_root_invalid :
    let t := after (.runWritten1 1) { State.reset with rootHi := 0x10000 }
    t.engine = .failed ∧ t.cause = .rootInvalid ∧ t.sent = [] := by
  decide +kernel

/-- R71, R164, R165: with all units idle and nothing pending the stop completes at once. -/
theorem test_run_written_0 :
    let t := after (.runWritten0 0) running
    t.engine = .stopped ∧ (t.queue 0).state = .disabled ∧ (t.ring 0).state = .unconfigured ∧ (t.ring 1).state = .active := by
  decide +kernel

/-- R123: the line follows NOTIFY_ENABLE while a ring has notify pending set. -/
theorem test_notify_enable :
    let s := running.setRing 2 { ringOn with notifyPending := true }
    notifyAsserted s = false ∧ notifyAsserted (after (.notifyEnable 3) s) = true := by
  decide +kernel

/-- R169: only the flag written 1 is cleared. -/
theorem test_flags_clear :
    (after (.flagsClear 2) { State.reset with flags := ⟨true, true, false, false⟩ }).flags = ⟨true, false, false, false⟩ := by
  decide

/-- R157: ROOT_HI holds what is written. -/
theorem test_register_write : (after (.registerWrite 0x14 0xABCD) State.reset).rootHi = 0xABCD := by decide +kernel

/-- R170: a write at 0x20 is ignored and sets BAD_ACCESS. -/
theorem test_misused_access :
    after (.misusedAccess ⟨true, 4, 0x20, 9⟩) State.reset = { State.reset with flags := ⟨false, false, false, true⟩ } := by
  decide +kernel

/-- Chapter 3's posting across the wrap, steps 1 and 7: head 6, tail 6, tail 1 accepted; head 7, tail 1, tail 6 accepted. -/
theorem test_post_work_accepted :
    ((after (.postWork 0x02000001) (running.setQueue 1 { queueOn 6 2 with head := 6, tail := 6 })).queue 1).tail = 1
    ∧ ((after (.postWork 0x02000006) (running.setQueue 1 { queueOn 6 2 with head := 7, tail := 1 })).queue 1).tail = 6 := by
  decide +kernel

/-- The same example, steps 5, 6 and 8: three posts rejected. -/
theorem test_post_work_rejected :
    let s := running.setQueue 1 { queueOn 6 2 with head := 7, tail := 1 }
    let t := after (.postWork 0x02000007) (after (.postWork 0x02000009) (after (.postWork 0x02000000) s))
    t.counters.rejectedPosts = 3 ∧ (t.queue 1).tail = 1 ∧ t.flags.postReject = true := by
  decide +kernel

/-- Chapter 7's example, step 4: the same tail again ends the halt. -/
theorem test_post_admin_retries :
    (after (.postAdmin 0x00000004) { running with admin := .halted 3 }).admin = .idle := by
  decide +kernel

/-- R116: for 16 entries with head 10 and tail 9, head 0 is accepted; with head 4 and tail 7, head 8 is rejected. -/
theorem test_cq_ack :
    ((after (.cqAck 0x01000000) (running.setRing 1 { ringOn with head := 10, tail := 9 })).ring 1).head = 0
    ∧ (after (.cqAck 0x01000008) (running.setRing 1 { ringOn with head := 4, tail := 7 })).counters.rejectedAcks = 1 := by
  decide +kernel

/-- R135: an unknown opcode with a non-zero reserved field is UNKNOWN. -/
theorem test_unknown_opcode :
    (after .unknownOpcode (taken ((adminRecord 0x0D 0 0 []).set 6 1))).occupied.map (fun o => o.entry.status) = [.unknown] := by
  decide +kernel

/-- R138: the detail holds the settings in force before. -/
theorem test_set_engine :
    let t := after .setEngine (taken (adminRecord 1 0 0 [(4, 500), (4, 30)]))
    t.requestTimeout = 500 ∧ t.stopGrace = 30 ∧ t.occupied.map (fun o => o.entry.detail) = [0x14000003E8] := by
  decide +kernel

/-- R135's examples: queue 9 with size 12 is INVALID/INDEX; level 8 on a RUNNING queue is INVALID/PARAMETER. -/
theorem test_configure_queue_checks :
    adminCheck running (adminRecord 2 9 0 [(8, 0x2000), (2, 12), (1, 1), (1, 1), (1, 0)]) = some (.invalid, .invalidIndex)
    ∧ adminCheck busy (adminRecord 2 1 0 [(8, 0x2000), (2, 16), (1, 8), (1, 1), (1, 0)])
        = some (.invalid, .invalidParameter) := by
  decide +kernel

/-- R140. -/
theorem test_configure_queue :
    let t := after .configureQueue (taken (adminRecord 2 5 0 [(8, 0x3000), (2, 16), (1, 4), (1, 2), (1, 1)]))
    (t.queue 4).ringBase = 0x3000 ∧ (t.queue 4).ringSize = 16 ∧ (t.queue 4).level = 4 ∧ (t.queue 4).ring = some 2
      ∧ (t.queue 4).policy = .skip ∧ (t.queue 4).state = .disabled := by
  decide +kernel

/-- R141: an IDLE queue stays as it is, sub-status UNCHANGED; an unconfigured one is NOT_READY. -/
theorem test_enable_queue :
    (after .enableQueue (taken (adminRecord 3 1 0 []))).occupied.map (fun o => o.entry.sub) = [.unchanged]
    ∧ (after .enableQueue (taken (adminRecord 3 4 0 []))).occupied.map (fun o => o.entry.status) = [.notReady] := by
  decide +kernel

/-- R143: a RUNNING queue gets its drain and a reservation for CQ0. -/
theorem test_disable_queue :
    let t := after .disableQueue
      (checkedIn (adminRecord 4 1 0 []) { busy with reserved := [⟨.context 0, 1⟩, ⟨.adminRecord, 0⟩] })
    (t.queue 0).drain = true ∧ t.reserved = [⟨.context 0, 1⟩, ⟨.drain 0, 0⟩] ∧ t.admin = .idle := by
  decide +kernel

/-- R142, R143: a queue that is IDLE when the waiting command is applied is DISABLED at once. -/
theorem test_disable_queue_applied :
    let t := after .disableQueueApplied { running with admin := .executing (adminRecord 4 1 0 []) (.waitEntry 0)
                                                       reserved := [⟨.adminRecord, 0⟩] }
    (t.queue 0).state = .disabled ∧ t.occupied.map (fun o => o.entry.sub) = [.immediate] := by
  decide +kernel

/-- R145: three posted records of an IDLE queue are discarded. -/
theorem test_abort_queue :
    let t := after .abortQueue (takenWith (adminRecord 5 1 0 []) 0 { queueOn 3 1 with head := 6, tail := 1 })
    (t.queue 0).state = .disabled ∧ (t.queue 0).head = 1 ∧ (t.queue 0).discarded = 3
      ∧ t.occupied.map (fun o => o.entry.detail) = [3] := by
  decide +kernel

/-- R146: SKIP_ONE after a FETCH halt. -/
theorem test_resume_queue :
    let t := after .resumeQueue (takenWith (adminRecord 6 1 1 []) 0
      { queueOn 3 1 with state := .halted, haltCause := .fetch, head := 7, tail := 1 })
    (t.queue 0).state = .idle ∧ (t.queue 0).head = 0 ∧ t.occupied.map (fun o => o.entry.sub) = [.skipped] := by
  decide +kernel

/-- R148: a BROKEN ring is repaired; its counts are kept. -/
theorem test_configure_cq :
    let s := checkedIn (adminRecord 7 3 0 [(8, 0x5000), (2, 32), (2, 9), (4, 7)])
      (running.setRing 3 { ringOn with state := .broken, written := 11 })
    let t := after .configureCq s
    (t.ring 3).state = .active ∧ (t.ring 3).size = 32 ∧ (t.ring 3).threshold = 9 ∧ (t.ring 3).written = 11 := by
  decide +kernel

/-- R85: an entry is written as a whole. -/
theorem test_load_aperture :
    (after .loadAperture (taken (adminRecord 8 15 0
      [(1, 2), (1, 20), (1, 3), (1, 3), (4, 0), (8, 0x200000), (8, 0x4000000000)]))).aperture 15
      = ⟨true, .translate, 20, 0x200000, 0x4000000000, true, true, 3⟩ := by
  decide +kernel

/-- R83: with a segment in flight the update waits. -/
theorem test_clear_aperture_waits :
    let t := after .clearAperture (checkedIn (adminRecord 9 0 0 []) { busy with segment := some onlyRead })
    t.waitingUpdate = some ⟨0, none⟩ ∧ (t.aperture 0).valid = true := by
  decide +kernel

/-- R132, R135: the checks are made in the step that takes the data, and a POST that comes next finds their verdict carried out. -/
theorem test_checks_come_with_the_data :
    let s := tagged .adminRecord .read 64 { running with admin := .fetching 3 true, reserved := [⟨.adminRecord, 0⟩] }
    let t := after (.dataOrAckResponse 5 (.data (adminRecord 12 1 0 []))) s
    t.admin = .executing (adminRecord 12 1 0 []) (.checked (some (.invalid, .invalidReserved))) ∧ t.adminRing.head = 4
      ∧ (after (.postWork 0x01000003) t).occupied.map (fun o => o.entry.status) = [.invalid] := by
  decide +kernel

/-- R151: the first of the four writes goes to the address itself; with CLEAR the counters are 0 afterwards. -/
theorem test_read_statistics :
    let t := after .readStatistics { taken (adminRecord 10 0 1 [(8, 0x8000)]) with counters := ⟨1, 2, 3, 4, 5, 6⟩ }
    t.sent.map (fun r => r.address) = [0x8000, 0x8040, 0x8080, 0x80C0] ∧ t.counters = ⟨0, 0, 0, 0, 0, 0⟩ := by
  decide +kernel

/-- R177: the first twelve bytes of an IDLE queue's report. -/
theorem test_query_queue :
    let t := after .queryQueue (taken (adminRecord 11 2 0 [(8, 0x8000)]))
    t.sent.map (fun r => r.data.take 12) = [[2, 1, 6, 2, 0, 0, 0, 0, 8, 0, 0, 0]] := by
  decide +kernel

/-- R153. -/
theorem test_mark : (after .mark (taken (adminRecord 12 0 0 []))).occupied.map (fun o => o.entry.status) = [.ok] := by
  decide +kernel

/-- Chapter 7's example, step 1: the read of index 3 goes to 0x7F0C0. -/
theorem test_take_up :
    let t := after .takeUp running
    t.sent = [⟨0, .read, 0x7F0C0, 64, []⟩] ∧ t.reserved = [⟨.adminRecord, 0⟩] ∧ t.admin = .fetching 3 true := by
  decide +kernel

/-- R61's example: WQ2 at level 6 is fetched before WQ1 at level 3. -/
theorem test_fetch_issue :
    let s := (running.setQueue 0 { queueOn 3 1 with tail := 2 }).setQueue 1 { queueOn 6 2 with tail := 1 }
    (after .fetchIssue s).fetch = some ⟨1, 0, 2, true⟩ := by
  decide +kernel

/-- R62, R32, R10: the record starts and its first segment is 128 bytes (chapter 1's example). -/
theorem test_data_starts_the_record :
    let s := tagged .fetch .read 64 { running.setQueue 0 { queueOn 3 1 with tail := 1, slot := .filling false } with
                                      fetch := some ⟨0, 0, 1, true⟩, reserved := [⟨.fetch, 1⟩]
                                      adminRing := ⟨0x7F000, 8, 4, 4⟩ }
    let t := after (.dataOrAckResponse 5 (.data copyBytes)) s
    t.segment.map (fun g => g.length) = some 128 ∧ (t.queue 0).state = .running ∧ t.reserved = [⟨.context 0, 1⟩] := by
  decide +kernel

/-- R109: a claim of the last free entry that the scheduler deferred is late: the take-up has it, and the record stays staged; before
any other event it is made. -/
theorem test_deferred_claim :
    let s : State := { running.setQueue 0 { queueOn 3 1 with tail := 1, slot := .full copyBytes } with
                       claimDeferred := true, occupied := List.replicate 15 (okEntry true) }
    (after .takeUp s).active = none ∧ (after .takeUp s).reserved = [⟨.adminRecord, 0⟩]
      ∧ (after (.flagsClear 0) s).reserved = [⟨.context 0, 1⟩] := by
  decide +kernel

/-- R109, R110: on a BROKEN CQ0 with the list full, the entry that an ENABLE QUEUE's completion frees is left for the contest between
the idle scheduler and the take-up of the posted record. -/
theorem test_enable_on_a_broken_ring :
    let s := checkedIn (adminRecord 3 2 0 [])
      { (((running.setQueue 0 { queueOn 3 1 with tail := 1, slot := .full copyBytes }).setQueue 1
            { queueOn 6 2 with state := .disabled }).setRing 0 { ringOn with state := .broken }) with
        reserved := [⟨.adminRecord, 0⟩], occupied := List.replicate 15 (okEntry true) }
    let t := enableQueue (adminRecord 3 2 0 []) s
    freeEntries s = 0 ∧ freeEntries t = 1 ∧ t.active = none ∧ schedulerClaims t = true ∧ rivalClaims t = true := by
  decide +kernel

/-- R143: once the stop has begun, a DISABLE QUEUE that waits is applied before any other event: OK, DEFERRED, and no drain. -/
theorem test_disable_never_waits_across_a_stop :
    let s : State := { busy with admin := .executing (adminRecord 4 1 0 []) (.waitEntry 0)
                                 reserved := [⟨.context 0, 1⟩, ⟨.adminRecord, 0⟩]
                                 occupied := List.replicate 14 (okEntry true) }
    let t := after (.flagsClear 0) (after (.runWritten0 2#32) s)
    (after (.flagsClear 0) s).admin = s.admin ∧ t.admin = .idle ∧ (t.queue 0).drain = false
      ∧ t.occupied.getLast?.map (fun o => (o.entry.status, o.entry.sub)) = some (.ok, .deferred) := by
  decide +kernel

/-- R112, R115: the ACK at the last slot wraps the tail and flips the phase. -/
theorem test_ack_wraps_the_ring :
    let s := tagged (.completion 1) .write 32 { running.setRing 1 { ringOn with tail := 15, head := 3 } with
                                                occupied := [okEntry true] }
    let t := after (.dataOrAckResponse 5 .ack) s
    (t.ring 1).tail = 0 ∧ (t.ring 1).phase = false ∧ (t.ring 1).unannounced = 1 ∧ t.occupied = [] := by
  decide +kernel

/-- R118: a failed entry write breaks the ring and discards what is bound for it. -/
theorem test_error_breaks_the_ring :
    let s := tagged (.completion 1) .write 32 { running with occupied := [okEntry true, okEntry false] }
    let t := after (.errorResponse 5) s
    (t.ring 1).state = .broken ∧ (t.ring 1).discarded = 2 ∧ t.occupied = [] := by
  decide +kernel

/-- Chapter 7's example, step 2: the read of index 3 times out. -/
theorem test_request_timeout :
    let s := tagged .adminRecord .read 64 { running with admin := .fetching 3 true, reserved := [⟨.adminRecord, 0⟩] }
    let t := after (.requestTimeout 5) s
    t.admin = .halted 3 ∧ t.tag 5 = .stale
      ∧ t.occupied.map (fun o => (o.entry.status, o.entry.head, o.entry.detail)) = [(.fetchError, 3, 0x7F0C0)] := by
  decide +kernel

/-- R99. -/
theorem test_late_response :
    let t := after (.lateResponse 5 .error) (running.setTag 5 .stale)
    t.tag 5 = .free ∧ t.counters.lateResponses = 1 ∧ t.flags.stray = false := by
  decide +kernel

/-- R102: tag number 32. -/
theorem test_stray_response :
    let t := after (.strayResponse 32 .ack) running
    t.counters.strayResponses = 1 ∧ t.flags.stray = true := by
  decide +kernel

/-- R122. -/
theorem test_age_timer :
    ((after (.ageTimerExpiry 2) (running.setRing 2 { ringOn with ageTimer := some 50 })).ring 2).notifyPending = true := by
  decide +kernel

/-- Chapter 8's example, step 8: what a full ring keeps is dropped and counted. -/
theorem test_stop_grace :
    let s : State := { running.setRing 1 { ringOn with head := 1, tail := 0 } with
                       engine := .stopping, run := false, graceTimer := .running 20
                       occupied := [okEntry false, okEntry false, okEntry false] }
    let t := after .stopGraceExpiry s
    t.engine = .stopped ∧ t.counters.droppedAtStop = 3 ∧ (t.ring 1).discarded = 0 := by
  decide +kernel

/-! ## Operations against the spec's worked examples -/

/-- Chapter 1: the five segments of the example's first row. -/
theorem test_segments_of_a_row :
    [0, 128, 384, 640, 896].map (fun off => segmentLength { copyContext with offset := off, done := off })
      = [128, 256, 256, 256, 104] := by
  decide +kernel

/-- Chapter 1: the three writes of the first segment's destination range. -/
theorem test_requests_of_a_range : splitAt64 0x40C10 128 = [(0, 48), (48, 64), (112, 16)] := by decide +kernel

/-- Chapter 4: the table of the worked example. -/
def exampleTable : State :=
  ((((running.setAperture 0 ⟨true, .translate, 20, 0x200000, 0x4000000000, true, true, 0x03⟩).setAperture 1
    ⟨true, .direct, 24, 0, 0, true, false, 0xFF⟩).setAperture 2
    ⟨true, .direct, 16, 0x100000, 0, true, true, 0x04⟩).setAperture 3
    ⟨true, .deny, 12, 0x300000, 0, false, false, 0xF8⟩).setAperture 4
    ⟨true, .direct, 24, 0x1000000, 0, true, true, 0xFF⟩

/-- A lookup's grant or fault as one value. -/
def lookupResult (q : WqId) (k : ReqKind) (a : Nat) : LookupFault ⊕ Nat :=
  match lookup exampleTable q k a 256 with | .ok x => .inr x | .error f => .inl f

/-- Chapter 4: lookups a to g. -/
theorem test_lookups :
    [lookupResult 0 .read 0x204000, lookupResult 2 .write 0x204000, lookupResult 2 .write 0x102000,
     lookupResult 4 .read 0x300400, lookupResult 1 .read 0x300400, lookupResult 4 .write 0x2000000,
     lookupResult 1 .write 0x1800400]
    = [.inr 0x4000004000, .inl .queue, .inl .rights, .inl .denied, .inr 0x300400, .inl .none, .inr 0x1800400] := by
  decide +kernel

/-- R3: the bytes of each element reversed. -/
theorem test_swap : swapElements 4 [1, 2, 3, 4, 5, 6, 7, 8] = [4, 3, 2, 1, 8, 7, 6, 5] := by decide

/-- R20: the first differing element of width 4 lies at offset 4. -/
theorem test_compare : firstDifference 4 [1, 2, 3, 4, 5, 6, 7, 8] [1, 2, 3, 4, 5, 6, 0, 8] = some 4 := by decide +kernel

/-- R175: status at 0, sub-status at 1, queue at 2, phase at 3, tag at 4. -/
theorem test_entry_bytes :
    (entryBytes ⟨.aperture, .lookup .rights .dest, 8, 0x1234, 5, 16, 0xABCDEF⟩ true).take 12
      = [0x12, 0x14, 8, 1, 0x34, 0x12, 5, 0, 16, 0, 0, 0] := by
  decide +kernel

/-- Chapter 10: RUNNING with CQ0's notify pending reads 0x00000102. -/
theorem test_status_word : registerValue (running.setRing 0 { ringOn with notifyPending := true }) 0x08 = 0x102 := by
  decide +kernel

/-! ## Witnesses: states and operands that meet the statements' hypotheses, clause by clause -/

theorem witness_StepRunsTheFrontCommand :
    { running with pending := [.takeUp, .fetchIssue] }.pending = .takeUp :: [.fetchIssue] ∧ running.pending = []
    ∧ isReady running = true := by
  decide +kernel

/-- RESET_N low for one more access. -/
theorem witness_PowerOnResetLeavesPowerOnValues :
    let s : State := { State.reset with heldEvents := 1 }
    s.heldEvents = 0 + 1 ∧ s.claimDeferred = false ∧ s.admin = .idle := by
  decide

theorem witness_SoftResetKeepsTheTagPoolAndTheRootRegisters : isReady busy = true ∧ (4#32).getLsbD 2 = true := by
  decide +kernel

theorem witness_RunWrittenOneStartsAStoppedEngine :
    isReady State.reset = true ∧ (1#32).getLsbD 0 = true ∧ (1#32).getLsbD 2 = false ∧ State.reset.run = false ∧ State.reset.engine = .stopped
    ∧ (let s := { State.reset with rootLo := 0xFFFFFFC0, rootHi := 0xFFFF }
       (s.rootHi ++ s.rootLo).toNat % 64 = 0 ∧ (s.rootHi ++ s.rootLo).toNat < 2 ^ 48)
    ∧ (let s := { State.reset with rootLo := 0, rootHi := 0x10000 }
       (s.rootHi ++ s.rootLo).toNat % 64 ≠ 0 ∨ 2 ^ 48 ≤ (s.rootHi ++ s.rootLo).toNat)
    ∧ { State.reset with engine := .stopping }.run = false := by
  decide +kernel

theorem witness_RunWrittenZeroBeginsTheStop :
    isReady busy = true ∧ (2#32).getLsbD 0 = false ∧ (2#32).getLsbD 2 = false ∧ busy.run = true ∧ busy.engine = .running := by
  decide +kernel

theorem witness_RunWrittenZeroOutsideRunning :
    let failed := { running with engine := .failed }
    let waits := { running with engine := .starting, rootRead := .waiting }
    let out := { running with engine := .starting, rootRead := .issued }
    let stops := { running with engine := .stopping }
    isReady failed = true ∧ isReady waits = true ∧ (0#32).getLsbD 0 = false ∧ (0#32).getLsbD 2 = false ∧ failed.run = true ∧ failed.engine = .failed
    ∧ waits.run = true ∧ waits.engine = .starting ∧ waits.rootRead = .waiting ∧ out.run = true ∧ out.engine = .starting
    ∧ out.rootRead = .issued ∧ stops.run = true ∧ stops.engine = .stopping := by
  decide +kernel

theorem witness_FlagsWriteClearsWhereOne : isReady running = true := by decide +kernel

theorem witness_RootRegistersHoldWhatIsWritten : isReady running = true := by decide +kernel

theorem witness_NotifyEnableIsWritten :
    isReady running = true ∧ (3#32).getLsbD 2 = false ∧ (3#32).getLsbD 0 = running.run := by decide +kernel

theorem witness_NotificationLineFollowsItsConditions :
    RingLaw (running.setRing 2 { ringOn with notifyPending := true }) ∧ running.heldEvents = 0 := by
  decide +kernel

theorem witness_MisusedAccessOnlySetsItsFlag :
    isReady running = true ∧ (let a : Access := ⟨true, 4, 0x20, 0⟩; (a.bytes ≠ 4 ∨ a.offset % 4 ≠ 0 ∨ 32 ≤ a.offset) ∧ a.isWrite = true)
    ∧ (let a : Access := ⟨false, 2, 0x1C, 0⟩; (a.bytes ≠ 4 ∨ a.offset % 4 ≠ 0 ∨ 32 ≤ a.offset) ∧ a.isWrite = false)
    ∧ (let a : Access := ⟨false, 4, 0x1E, 0⟩; a.bytes ≠ 4 ∨ a.offset % 4 ≠ 0 ∨ 32 ≤ a.offset) := by
  decide

theorem witness_PostIsCheckedByItsQueue :
    isReady running = true ∧ isReady State.reset = true
    ∧ ((0#8 ≠ 0 ∨ 8 < (9#8).toNat) ∧ (1#8).toNat = (0 : WqId).val + 1 ∧ (8#8).toNat = (7 : WqId).val + 1)
    ∧ (running.queue 7).ringSize = 0
    ∧ (let d := running.queue 0
       d.head < d.ringSize ∧ d.tail < d.ringSize
       ∧ ((7#16).toNat < d.ringSize ∧ ((d.tail : Int) - d.head) % d.ringSize ≤ (((7#16).toNat : Int) - d.head) % d.ringSize)
       ∧ ¬ ((8#16).toNat < d.ringSize ∧ ((d.tail : Int) - d.head) % d.ringSize ≤ (((8#16).toNat : Int) - d.head) % d.ringSize))
    ∧ State.reset.engine ≠ .running ∧ running.engine = .running
    ∧ (let r := running.adminRing
       r.head < r.size ∧ r.tail < r.size
       ∧ ((4#16).toNat < r.size ∧ ((r.tail : Int) - r.head) % r.size ≤ (((4#16).toNat : Int) - r.head) % r.size)
       ∧ ¬ ((3#16).toNat < r.size ∧ ((r.tail : Int) - r.head) % r.size ≤ (((3#16).toNat : Int) - r.head) % r.size)) := by
  decide +kernel

theorem witness_CompletionAckIsChecked :
    isReady running = true ∧ (0#8 ≠ 0 ∨ 3 < (4#8).toNat) ∧ (3#8).toNat = (3 : CqId).val ∧ (State.reset.ring 3).state = .unconfigured
    ∧ (let r := (running.setRing 3 { ringOn with head := 10, tail := 9 }).ring 3
       r.state ≠ .unconfigured ∧ r.head < r.size ∧ r.tail < r.size
       ∧ ((15#16).toNat < r.size ∧ (((15#16).toNat : Int) - r.head) % r.size ≤ ((r.tail : Int) - r.head) % r.size)
       ∧ ¬ ((16#16).toNat < r.size)) := by
  decide +kernel

theorem witness_AdminRefusalIsOnlyACompletion :
    let b := adminRecord 6 1 2 []
    (taken b).admin = .executing b (.checked (some (.invalid, .invalidReserved))) ∧ ((taken b).ring 0).state ≠ .broken := by
  decide +kernel

theorem witness_UnknownOpcodeAndMarkOnlyComplete :
    let u := adminRecord 13 0 0 []
    let m := adminRecord 12 0 0 []
    let s (b : List Byte) := checkedIn b (running.setRing 0 { ringOn with state := .broken })
    (taken u).admin = .executing u (.checked (adminCheck (taken u) u)) ∧ 12 < adminOpcode u
    ∧ adminOpcode (adminRecord 0 0 0 []) = 0 ∧ ((taken u).ring 0).state ≠ .broken
    ∧ (taken m).admin = .executing m (.checked (adminCheck (taken m) m)) ∧ adminOpcode m = 12 ∧ recordOk m = true
    ∧ ((taken m).ring 0).state ≠ .broken
    ∧ (s m).admin = .executing m (.checked (adminCheck (s m) m)) ∧ ((s m).ring 0).state = .broken
    ∧ (s u).admin = .executing u (.checked (adminCheck (s u) u)) := by
  decide +kernel

theorem witness_SetEngineReplacesTheSettings :
    let b := adminRecord 1 0 0 [(4, 65535), (4, 255)]
    Holds 0x01 b (taken b) := by
  decide +kernel

theorem witness_ConfigureQueueIsCheckedAndSetsTheQueue :
    let b := adminRecord 2 8 0 [(8, 2 ^ 48 - 4096 * 64), (2, 4096), (1, 7), (1, 3), (1, 1)]
    let b' := adminRecord 2 1 0 [(8, 0), (2, 8), (1, 1), (1, 1), (1, 0)]
    Holds 0x02 b (taken b) ∧ adminIndex b = (7 : WqId).val + 1 ∧ field b 19 1 = (3 : CqId).val
    ∧ ((taken b).queue 7).state = .disabled
    ∧ Holds 0x02 b' (taken b') ∧ adminIndex b' = (0 : WqId).val + 1 ∧ field b' 19 1 = (1 : CqId).val
    ∧ ((taken b').queue 0).state ≠ .disabled := by
  decide +kernel

theorem witness_EnableQueueFollowsItsTable :
    let b := adminRecord 3 1 0 []
    let at' (d : Queue) : State := takenWith b 0 d
    let dis : Queue := { queueOn 3 1 with state := .disabled }
    let unbound := checkedIn b ((running.setQueue 0 dis).setRing 1 Ring.reset)
    let stops := checkedIn b { running.setQueue 0 dis with engine := .stopping }
    adminOpcode b = 0x03
    ∧ Holds 0x03 b (at' Queue.reset) ∧ adminIndex b = (0 : WqId).val + 1 ∧ ((at' Queue.reset).queue 0).ringSize = 0
    ∧ Holds 0x03 b (at' { queueOn 3 1 with state := .halted }) ∧ Holds 0x03 b (at' (queueOn 3 1))
    ∧ (queueOn 3 1).ringSize ≠ 0 ∧ (queueOn 3 1).drain = false ∧ (queueOn 3 1).state = .idle
    ∧ Holds 0x03 b (at' dis) ∧ ((at' dis).queue 0).state = .disabled ∧ ((at' dis).queue 0).ring = some 1
    ∧ Holds 0x03 b unbound ∧ (unbound.ring 1).state ≠ .active ∧ Holds 0x03 b stops ∧ stops.engine = .stopping
    ∧ ((at' dis).ring 1).state = .active ∧ (at' dis).engine ≠ .stopping
    ∧ (let broken := (at' dis).setRing 0 { ringOn with state := .broken }
       Holds 0x03 b broken
        ∧ freeEntries broken < freeEntries (withCompletion (broken.setQueue 0 { dis with state := .idle }) b .ok .none 0)) := by
  decide +kernel

/-- An IDLE queue with a FULL slot, a HALTED one and a DISABLED one, by the command itself and after its wait. -/
theorem witness_DisableQueueActsAtOnceOutsideAContext :
    let b := adminRecord 4 1 0 []
    let at' (d : Queue) : State := takenWith b 0 d
    let after' (d : Queue) : State := { takenWith b 0 d with admin := .executing b (.waitEntry 0) }
    let full : Queue := { queueOn 3 1 with slot := .full copyBytes }
    let halted : Queue := { queueOn 3 1 with state := .halted, slot := .filling true }
    adminOpcode b = 0x04 ∧ Holds 0x04 b (at' full) ∧ adminIndex b = (0 : WqId).val + 1
    ∧ (after' full).admin = .executing b (.waitEntry 0) ∧ ((at' full).queue 0).state = .idle
    ∧ Holds 0x04 b (at' halted) ∧ ((at' halted).queue 0).state = .halted
    ∧ Holds 0x04 b (at' Queue.reset) ∧ ((at' Queue.reset).queue 0).state = .disabled := by
  decide +kernel

/-- WQ1 RUNNING: draining already, in STOPPING, with a free entry, and with the list full, by the command itself and after its wait. -/
theorem witness_DisableQueueRequestsTheDrain :
    let b := adminRecord 4 1 0 []
    let waits (s : State) : State := { s with admin := .executing b (.waitEntry 0) }
    let draining := busy.setQueue 0 { busy.queue 0 with drain := true }
    let stops : State := { busy with engine := .stopping }
    let full : State := { busy with occupied := List.replicate 15 (okEntry false) }
    Holds 0x04 b (checkedIn b busy) ∧ adminIndex b = (0 : WqId).val + 1 ∧ (busy.queue 0).state = .running
    ∧ Holds 0x04 b (checkedIn b draining) ∧ (draining.queue 0).drain = true
    ∧ (waits stops).admin = .executing b (.waitEntry 0) ∧ (stops.queue 0).state = .running ∧ stops.engine = .stopping
    ∧ (busy.queue 0).drain = false ∧ busy.engine ≠ .stopping ∧ 0 < freeEntries busy
    ∧ Holds 0x04 b (checkedIn b full) ∧ freeEntries (checkedIn b full) = 0 ∧ freeEntries (waits full) = 0 := by
  decide +kernel

theorem witness_AbortQueueWithoutAStackedContext :
    let b := adminRecord 5 1 0 []
    let s1 := checkedIn b busy
    let s2 := takenWith b 0 { queueOn 3 1 with head := 6, tail := 1, slot := .filling true }
    let s3 := takenWith b 0 Queue.reset
    adminOpcode b = 0x05 ∧ Holds 0x05 b s1 ∧ adminIndex b = (0 : WqId).val + 1 ∧ s1.active = some copyContext
    ∧ copyContext.queue = 0
    ∧ Holds 0x05 b s2 ∧ (∀ c ∈ contexts s2, c.queue ≠ 0) ∧ (s2.queue 0).head < (s2.queue 0).ringSize
    ∧ (s2.queue 0).tail < (s2.queue 0).ringSize
    ∧ ((3 : Nat) : Int) = (((s2.queue 0).tail : Int) - (s2.queue 0).head) % (s2.queue 0).ringSize
    ∧ Holds 0x05 b s3 ∧ (s3.queue 0).ringSize = 0 ∧ (∀ c ∈ contexts s3, c.queue ≠ 0) := by
  decide +kernel

/-- WQ2 at level 6 above WQ1, which drains. -/
def nested : State :=
  { (busy.setQueue 0 { busy.queue 0 with state := .suspended, drain := true, tail := 3 }).setQueue 1
      { queueOn 6 2 with state := .running, head := 1, tail := 1 } with
    active := some { copyContext with queue := 1, level := 6, ring := 2 }, stack := [copyContext], currentLevel := 6
    reserved := [⟨.context 0, 1⟩, ⟨.drain 0, 0⟩, ⟨.context 1, 2⟩, ⟨.adminRecord, 0⟩] }

theorem witness_AbortQueueEndsAStackedContext :
    let b := adminRecord 5 1 0 []
    let s := checkedIn b nested
    Holds 0x05 b s ∧ adminIndex b = (0 : WqId).val + 1 ∧ copyContext.queue = 0 ∧ s.stack = [] ++ copyContext :: []
    ∧ (∀ p ∈ s.active, p.queue ≠ 0)
    ∧ (s.queue 0).head < (s.queue 0).ringSize ∧ (s.queue 0).tail < (s.queue 0).ringSize
    ∧ ((2 : Nat) : Int) = (((s.queue 0).tail : Int) - (s.queue 0).head) % (s.queue 0).ringSize := by
  decide +kernel

theorem witness_ResumeQueueEndsTheHalt :
    let b := adminRecord 6 1 1 []
    let s := takenWith b 0 { queueOn 3 1 with state := .halted, haltCause := .fetch, head := 7, tail := 1 }
    adminOpcode b = 0x06 ∧ Holds 0x06 b s ∧ adminIndex b = (0 : WqId).val + 1 ∧ (s.queue 0).state = .halted
    ∧ Holds 0x06 b (taken b) ∧ ((taken b).queue 0).state ≠ .halted
    ∧ Holds 0x06 b (s.setRing 0 { ringOn with state := .broken }) := by
  decide +kernel

theorem witness_ConfigureCqMakesTheRingActive :
    let b := adminRecord 7 1 0 [(8, 0), (2, 16), (2, 1), (4, 0)]
    let b' := adminRecord 7 3 0 [(8, 2 ^ 48 - 4096 * 32), (2, 4096), (2, 255), (4, 65535)]
    Holds 0x07 b (taken b) ∧ adminIndex b = (1 : CqId).val
    ∧ ((taken b).queue 0).ring = some 1 ∧ ((taken b).queue 0).state ≠ .disabled
    ∧ Holds 0x07 b' (taken b') ∧ adminIndex b' = (3 : CqId).val
    ∧ (∀ q, ¬ (((taken b').queue q).ring = some 3 ∧ ((taken b').queue q).state ≠ .disabled))
    ∧ (∀ r ∈ (taken b').reserved, r.ring ≠ 3) ∧ (∀ o ∈ (taken b').occupied, o.ring ≠ 3) := by
  decide +kernel

theorem witness_ApertureCommandsUpdateOrWait :
    let b := adminRecord 8 15 0 [(1, 2), (1, 20), (1, 3), (1, 3), (4, 0), (8, 0x200000), (8, 0x4000000000)]
    let b' := adminRecord 9 0 0 []
    let w (b : List Byte) := checkedIn b { busy with segment := some onlyRead }
    adminIndex b = (15 : ApId).val ∧ Holds 0x08 b (taken b) ∧ (taken b).segment = none ∧ Holds 0x08 b (w b)
    ∧ (w b).segment ≠ none
    ∧ adminIndex b' = (0 : ApId).val ∧ Holds 0x09 b' (taken b') ∧ (taken b').segment = none ∧ Holds 0x09 b' (w b') := by
  decide +kernel

theorem witness_ReadStatisticsCapturesEveryCounter :
    let b := adminRecord 10 0 1 [(8, 2 ^ 48 - 256)]
    Holds 0x0A b (taken b) ∧ CounterLaw (taken b) := by
  decide +kernel

theorem witness_QueryQueueTakesTheReport :
    let b := adminRecord 11 1 0 [(8, 2 ^ 48 - 64)]
    Holds 0x0B b (taken b) ∧ adminIndex b = (0 : WqId).val + 1 ∧ SchedulerLaw (taken b) ∧ WorkRingLaw (taken b)
    ∧ (∀ c ∈ contexts (taken b), c.queue ≠ 0) := by
  decide +kernel

/-- The same with WQ1's context stacked below WQ2's, which is active. -/
theorem witness_QueryQueueTakesTheReport_contexts :
    let b := adminRecord 11 1 0 [(8, 0)]
    let b' := adminRecord 11 2 0 [(8, 0)]
    let s (b : List Byte) := checkedIn b nested
    Holds 0x0B b (s b) ∧ (s b).stack = [] ++ copyContext :: [] ∧ (∀ p ∈ (s b).active, p.queue ≠ 0)
    ∧ Holds 0x0B b' (s b') ∧ adminIndex b' = (1 : WqId).val + 1 ∧ (s b').active.map (fun c => c.queue) = some 1 := by
  decide +kernel

theorem witness_QueryQueueTakesTheReport_laws : SchedulerLaw nested ∧ WorkRingLaw nested := by decide +kernel

theorem witness_PlacementAndEmptyingFollowTheirTables :
    let w (out : Bool) : State := { running.setQueue 0 { queueOn 3 1 with slot := .filling false } with
                                    fetch := some ⟨0, 0, 1, out⟩ }
    (running.ring 1).state ≠ .broken ∧ ((running.setRing 1 { ringOn with state := .broken }).ring 1).state = .broken
    ∧ (running.queue 0).slot = .empty ∧ ((w false).queue 0).slot = .filling false
    ∧ (w false).fetch = some ⟨0, 0, 1, false⟩ ∧ (w true).fetch = some ⟨0, 0, 1, true⟩
    ∧ ((running.setQueue 0 { queueOn 3 1 with slot := .full copyBytes }).queue 0).slot = .full copyBytes
    ∧ ((running.setQueue 0 { queueOn 3 1 with slot := .filling true }).queue 0).slot = .filling true
    ∧ freeEntries running ≤ freeEntries running ∧ freeEntries busy < freeEntries running := by
  decide +kernel

/-- A staged record of WQ1 and a posted admin record contend for a freed entry. -/
theorem witness_PlacementAndEmptyingFollowTheirTables_claims :
    let s := running.setQueue 0 { queueOn 3 1 with tail := 1, slot := .full copyBytes }
    WorkRingLaw s ∧ s.engine = .running ∧ s.active = none ∧ choose s = .start 0 ∧ s.admin = .idle
    ∧ 0 < s.adminRing.posted ∧ 0 < freeEntries s := by
  decide +kernel

theorem witness_ImpossibleEventsChangeNothing :
    let b := adminRecord 12 0 0 []
    (taken b).admin = .executing b (.checked none) ∧ isReady State.reset = true
    ∧ State.reset.engine ≠ .running ∧ (State.reset.ring 0).ageTimer = none ∧ State.reset.graceTimer = .stopped
    ∧ State.reset.tag 0 = .free ∧ State.reset.admin = .idle ∧ State.reset.adminRing.posted = 0
    ∧ (let waits : State := { running with admin := .executing b (.waitEntry 0) }
       waits.admin = .executing b (.waitEntry 0) ∧ (waits.queue 0).state = .idle
        ∧ (busy.queue 0).state = .running ∧ (busy.queue 0).drain = false ∧ busy.engine ≠ .stopping) := by
  decide +kernel

theorem witness_TakeUpReservesAndFetches :
    running.engine = .running ∧ running.admin = .idle ∧ running.adminRing.head < running.adminRing.size
    ∧ running.adminRing.tail < running.adminRing.size ∧ running.adminRing.head ≠ running.adminRing.tail
    ∧ 0 < freeEntries running ∧ running.claimDeferred = false ∧ { running with claimDeferred := true }.claimDeferred = true := by
  decide +kernel

/-- WQ1 and WQ2 at one level with records posted: WQ1, of lower number, is the one. -/
theorem witness_FetchIssueServesTheHighestCandidate :
    let s := (running.setQueue 0 { queueOn 6 1 with tail := 2 }).setQueue 1 { queueOn 6 2 with tail := 1 }
    WorkRingLaw s ∧ s.engine = .running ∧ s.fetch = none ∧ 0 < freeEntries s ∧ isReady s = true ∧ (s.queue 0).ring = some 1
    ∧ (s.queue 0).state = .idle ∧ (s.queue 0).slot = .empty ∧ (s.queue 0).head ≠ (s.queue 0).tail
    ∧ (∀ p, (s.queue p).head ≠ (s.queue p).tail →
        (s.queue p).level < (s.queue 0).level ∨ ((s.queue p).level = (s.queue 0).level ∧ 0 ≤ p))
    ∧ WorkRingLaw running ∧ (∀ p, (running.queue p).head = (running.queue p).tail) := by
  decide +kernel

theorem witness_ClientsAskInTheFixedOrder :
    let c : State := { running with occupied := [okEntry false] }
    let m : State := { busy with segment := some { onlyRead with
      requests := [⟨.source, .read, 0x100, 0x100, 16, .issued, []⟩, ⟨.source, .read, 0x140, 0x140, 16, .waiting, []⟩] } }
    let few : State := { m with tags := Vector.ofFn fun i : Fin 32 => if i.val < 4 then .free else .stale }
    freeTags c ≠ 0 ∧ oldestReady c = some (okEntry false) ∧ c.graceTimer ≠ .expired
    ∧ oldestReady running = none ∧ running.rootRead ≠ .waiting
    ∧ 5 ≤ freeTags m ∧ freeTags few = 4 ∧ few.fetch = none ∧ few.admin = .idle ∧ oldestReady few = none
    ∧ m.segment.map (fun g => g.requests.map fun q => q.progress) = some [.issued, .waiting] := by
  decide +kernel

theorem witness_GrantsServeEveryClientTheyCan :
    nextGrant { running with admin := .fetching 3 false } = some ⟨.adminRecord, .read, 0x7F0C0, 64, []⟩
    ∧ running.tag 0 = .free := by
  decide +kernel

/-- A fetch of WQ1 that is out, beside two contexts. -/
def fetching (d : Queue) : State :=
  { (tagged .fetch .read 64 nested).setQueue 0 d with fetch := some ⟨0, 0, 1, true⟩
                                                      reserved := nested.reserved ++ [⟨.fetch, 1⟩] }

theorem witness_FetchDataFillsTheSlot :
    let s (c : Bool) := fetching { queueOn 3 1 with slot := .filling c }
    (s true).tag 5 = .inUse .fetch .read 0 copyBytes.length 1000 ∧ (s false).fetch = some ⟨0, 0, 1, true⟩
    ∧ ((s true).queue 0).slot = .filling true ∧ ((s false).queue 0).slot = .filling false
    ∧ isReady (s true) = true ∧ isReady (s false) = true := by
  decide +kernel

theorem witness_FetchFailureHaltsOrHolds :
    let s1 := fetching { queueOn 3 1 with slot := .filling true }
    let s2 := fetching { queueOn 3 1 with slot := .filling false, state := .suspended }
    let s3 := fetching { queueOn 3 1 with slot := .filling false }
    isReady s1 = true ∧ isReady s2 = true ∧ isReady s3 = true
    ∧ s1.tag 5 = .inUse .fetch .read 0 64 1000 ∧ (s1.queue 0).slot = .filling true ∧ s1.fetch = some ⟨0, 0, 1, true⟩
    ∧ s2.tag 5 = .inUse .fetch .read 0 64 1000 ∧ (s2.queue 0).slot ≠ .filling true ∧ (s2.queue 0).state = .suspended
    ∧ s3.tag 5 = .inUse .fetch .read 0 64 1000 ∧ (s3.queue 0).slot ≠ .filling true ∧ (s3.queue 0).state = .idle := by
  decide +kernel

theorem witness_WrittenEntryMovesItsRingOn :
    let s : State := tagged (.completion 1) .write 32 { nested.setRing 1 { ringOn with tail := 15, head := 3, ageLimit := 9 } with
                                                        occupied := [okEntry true] }
    s.tag 5 = .inUse (.completion 1) .write 0 32 1000 ∧ s.occupied = [] ++ okEntry true :: []
    ∧ (okEntry true).ring = 1 ∧ (okEntry true).inFlight = true ∧ (s.ring 1).tail < (s.ring 1).size
    ∧ isReady s = true := by
  decide +kernel

theorem witness_FailedEntryWriteBreaksItsRing :
    let s : State := tagged (.completion 1) .write 32 { nested with occupied := [okEntry true] }
    isReady s = true ∧ s.tag 5 = .inUse (.completion 1) .write 0 32 1000
    ∧ ∃ o ∈ s.occupied, o.ring = 1 ∧ o.inFlight = true := by
  decide +kernel

theorem witness_AdminReadIsTakenOrHalts :
    let s : State := tagged .adminRecord .read 64 { running with admin := .fetching 3 true, reserved := [⟨.adminRecord, 0⟩] }
    s.tag 5 = .inUse .adminRecord .read 0 (adminRecord 12 0 0 []).length 1000 ∧ s.admin = .fetching 3 true
    ∧ isReady s = true := by
  decide +kernel

/-- The root read out, with RUN 1 and RUN 0, and the root block at the upper ends of R160's ranges. -/
theorem witness_RootReadDecidesTheStart :
    let s : State := tagged .rootRead .read 64 { State.reset with engine := .starting, rootRead := .issued, run := true }
    let b := record [(8, 2 ^ 48 - 256 * 64), (2, 256), (6, 0), (8, 2 ^ 48 - 4096 * 32), (2, 4096), (2, 255), (4, 65535)]
    isReady s = true ∧ s.tag 5 = .inUse .rootRead .read 0 b.length 1000 ∧ s.rootRead = .issued ∧ s.run = true
    ∧ { s with run := false }.tag 5 = .inUse .rootRead .read 0 64 1000 ∧ { s with run := false }.run = false
    ∧ field b 10 6 = 0 ∧ field b 32 32 = 0 ∧ field b 8 2 = 2 ^ 8 ∧ field b 0 8 % 4096 = 0
    ∧ field b 0 8 + 64 * field b 8 2 ≤ 2 ^ 48 ∧ field b 24 2 = 2 ^ 12 ∧ field b 16 8 % 4096 = 0
    ∧ field b 16 8 + 32 * field b 24 2 ≤ 2 ^ 48 ∧ field b 26 2 = 255 ∧ field b 28 4 = 65535
    ∧ (zeros 64).length = 64 ∧ ¬ (1 ≤ field (zeros 64) 26 2) := by
  decide +kernel

theorem witness_BlockWritesCompleteTheCommand :
    let w (p : Progress) : AdminWrite := ⟨0x8000, zeros 64, p⟩
    let b := adminRecord 10 0 0 [(8, 0x8000)]
    let s (ws : List AdminWrite) (f : Option WriteFailure) : State :=
      tagged (.adminWrite 0) .write 64 { running with admin := .executing b (.writing ws f), reserved := [⟨.adminRecord, 0⟩] }
    (s [w .issued, w .waiting] none).tag 5 = .inUse (.adminWrite 0) .write 0 64 1000
    ∧ [w .issued, w .waiting][0]? = some (w .issued)
    ∧ (s [w .issued, w .waiting] none).admin = .executing b (.writing [w .issued, w .waiting] none)
    ∧ (s [w .issued] (some ⟨true, 0x8040⟩)).admin = .executing b (.writing [w .issued] (some ⟨true, 0x8040⟩))
    ∧ isReady (s [w .issued] none) = true := by
  decide +kernel

theorem witness_MoverKeepsWhatItReads :
    let s (g : Segment) : State := tagged (.mover 0) .read 16 { busy with segment := some g }
    isReady (s twoReads) = true
    ∧ (s twoReads).tag 5 = .inUse (.mover 0) .read 0 (zeros 16).length 1000 ∧ (s twoReads).active = some copyContext
    ∧ (s twoReads).segment = some twoReads ∧ twoReads.phase = .reading
    ∧ (∃ q ∈ twoReads.requests.modify 0 (fun q => { q with progress := .resolved, data := zeros 16 }), q.progress ≠ .resolved)
    ∧ (s onlyRead).tag 5 = .inUse (.mover 0) .read 0 16 1000
    ∧ (∀ q ∈ onlyRead.requests.modify 0 (fun q => { q with progress := .resolved, data := zeros 16 }), q.progress = .resolved)
    ∧ copyContext.record.type = 1 ∧ onlyRead.dest = some ⟨0x200, 0x200, 16⟩ := by
  decide +kernel

/-- A COMPARE of width 4 whose destination's data comes last: the operands differ in their third element, or in none. -/
theorem witness_MoverKeepsWhatItReads_compare :
    let x : Context := { copyContext with record := workRecord (workBytes 3 4 0 0x100 0x200 16 1 0 0 0) }
    let g : Segment := { onlyRead with requests :=
      [⟨.source, .read, 0x100, 0x100, 16, .resolved, zeros 16⟩, ⟨.dest, .read, 0x200, 0x200, 16, .issued, []⟩] }
    let s : State := tagged (.mover 1) .read 16 { busy with segment := some g, active := some x }
    let brought (b : List Byte) (o : Operand) :=
      ((g.requests.modify 1 fun q => { q with progress := .resolved, data := b }).filter
        fun q => q.operand = o ∧ q.kind = .read).flatMap fun q => q.data
    let element (b : List Byte) (o : Operand) (j : Nat) := ((brought b o).drop (j * 4)).take 4
    let off : List Byte := zeros 9 ++ [1] ++ zeros 6
    isReady s = true ∧ s.tag 5 = .inUse (.mover 1) .read 0 off.length 1000 ∧ x.record.type = 3 ∧ x.record.width = 4
    ∧ g.phase = .reading ∧ (brought off .source).length / 4 = 4
    ∧ element off .source 2 ≠ element off .dest 2 ∧ (∀ i, i < 2 → element off .source i = element off .dest i)
    ∧ (∀ j, j < 4 → element (zeros 16) .source j = element (zeros 16) .dest j) := by
  decide +kernel

theorem witness_FailedRequestEndsTheRecord :
    let s (g : Segment) (p : FaultPolicy) : State :=
      tagged (.mover 0) .read 16 { busy.setQueue 0 { busy.queue 0 with policy := p } with segment := some g }
    let f : SegFailure := ⟨true, .dest, 0x240⟩
    let settling : Segment := { twoReads with phase := .settling, failure := some f }
    isReady (s twoReads .halt) = true ∧ isReady (s onlyRead .skip) = true
    ∧ (s twoReads .halt).tag 5 = .inUse (.mover 0) .read 0 16 1000 ∧ twoReads.failure = none
    ∧ twoReads.requests[0]? = some ⟨.source, .read, 0x100, 0x100, 16, .issued, []⟩
    ∧ (∃ p ∈ twoReads.requests.modify 0 (fun q => { q with progress := .resolved }), p.progress = .issued)
    ∧ (∀ p ∈ onlyRead.requests.modify 0 (fun q => { q with progress := .resolved }), p.progress ≠ .issued)
    ∧ settling.phase = .settling ∧ settling.failure = some f ∧ (s settling .halt).segment = some settling
    ∧ (s onlyRead .skip).waitingUpdate = none ∧ (s onlyRead .skip).engine = .running
    ∧ ((s onlyRead .skip).queue 0).drain = false ∧ ((s onlyRead .skip).queue 0).abortPending = false
    ∧ (s onlyRead .skip).admin = .idle ∧ ((s onlyRead .skip).ring 1).state ≠ .broken := by
  decide +kernel

theorem witness_LastAcknowledgmentEndsTheRecord :
    let s : State := tagged (.mover 0) .write 16 { busy with segment := some lastWrite, active := some shortContext }
    let two := lastWrite.requests ++ lastWrite.requests
    isReady s = true ∧ s.tag 5 = .inUse (.mover 0) .write 0 16 1000 ∧ s.active = some shortContext
    ∧ s.segment = some lastWrite ∧ lastWrite.phase = .writing
    ∧ (∃ q ∈ two.modify 0 (fun q => { q with progress := .resolved }), q.progress ≠ .resolved)
    ∧ (∀ q ∈ lastWrite.requests.modify 0 (fun q => { q with progress := .resolved }), q.progress = .resolved)
    ∧ shortContext.done + lastWrite.length = shortContext.record.rowLength * shortContext.record.rows
    ∧ s.waitingUpdate = none ∧ (s.queue 0).abortPending = false ∧ s.admin = .idle
    ∧ (s.ring 1).state ≠ .broken ∧ (s.ring 0).state ≠ .broken := by
  decide +kernel

theorem witness_LateResponseFreesItsTag :
    isReady (running.setTag 5 .stale) = true ∧ (running.setTag 5 .stale).tag 5 = .stale := by decide +kernel

theorem witness_StrayResponseIsOnlyCounted : isReady running = true ∧ 31 < (32#8).toNat ∧ running.tag 31 = .free := by decide +kernel

theorem witness_MismatchedAnswersAreErrors :
    isReady (tagged (.mover 0) .write 16 busy) = true
    ∧ (tagged (.mover 0) .write 16 busy).tag 5 = .inUse (.mover 0) .write 0 16 1000
    ∧ (tagged .fetch .read 64 busy).tag 5 = .inUse .fetch .read 0 64 1000 := by
  decide +kernel

theorem witness_TimeoutMakesTheTagStale :
    isReady (tagged .fetch .read 64 busy) = true ∧ (tagged .fetch .read 64 busy).tag 5 = .inUse .fetch .read 0 64 1000 := by
  decide +kernel

theorem witness_TimersExpire :
    let s (out : Bool) (r : Bool) (g : GraceTimer) : State :=
      { running with engine := .stopping, run := r, graceTimer := g, occupied := [okEntry out] }
    let none' (s : State) : State := { s with occupied := [] }
    isReady (s false false (.running 20)) = true
    ∧ ((running.setRing 2 { ringOn with ageTimer := some 50 }).ring 2).ageTimer = some 50
    ∧ (s false false (.running 20)).graceTimer = .running 20 ∧ (s false false .stopped).engine = .stopping
    ∧ (s false false .stopped).admin = .idle ∧ (s false false .stopped).occupied ≠ []
    ∧ { busy with engine := .stopping }.active ≠ none
    ∧ (none' (s false false .stopped)).occupied = [] ∧ (s false true .expired).run = true
    ∧ (∀ o ∈ (s false false .expired).occupied, o.inFlight = false)
    ∧ (∃ o ∈ (s true false .expired).occupied, o.inFlight = true) := by
  decide +kernel

/-- WQ2's staged record of 16 bytes. -/
def shortBytes : List Byte := workBytes 1 4 0 0x100 0x200 16 1 0 0 0

/-- The context a start of WQ2 makes. -/
def startedContext : Context :=
  { queue := 1, level := 6, record := workRecord shortBytes, index := 0, row := 0, offset := 0, done := 0, ring := 2 }

theorem witness_SelectionStartsOrResumes :
    let s := running.setQueue 1 { queueOn 6 2 with tail := 1, slot := .full shortBytes }
    let r : State := { nested with active := none }
    s.engine = .running ∧ s.active = none ∧ 0 < freeEntries s ∧ (s.queue 1).state = .idle
    ∧ (s.queue 1).slot = .full shortBytes ∧ (s.queue 1).drain = false ∧ (s.queue 1).ring = some 2 ∧ 0 < (s.queue 1).level
    ∧ s.stack.head? = none ∧ s.startOrder = [0] ++ 1 :: [2, 3, 4, 5, 6, 7] ∧ (1 : WqId) ∉ [(0 : WqId)]
    ∧ (∀ p ∈ s.startOrder, eligible s p = true → (s.queue p).level ≤ (s.queue 1).level)
    ∧ (∀ p ∈ [(0 : WqId)], eligible s p = true → (s.queue p).level < (s.queue 1).level)
    ∧ r.engine = .running ∧ r.active = none ∧ r.stack = copyContext :: []
    ∧ (∀ p ∈ r.startOrder, eligible r p = true → (r.queue p).level ≤ copyContext.level)
    ∧ NothingToStart busy ∧ NothingToStart running := by
  decide +kernel

/-- A boundary of the example's COPY with an eligible WQ2 above it; its last; one with an abort pending; one in STOPPING; and with an
update that waits. -/
theorem witness_BoundaryPreemptsOrContinues :
    let s := busy.setQueue 1 { queueOn 6 2 with tail := 1, slot := .full shortBytes }
    let b := adminRecord 9 0 0 []
    let u : State := { busy with waitingUpdate := some ⟨0, none⟩, admin := .executing b .waitUpdate }
    s.engine = .running ∧ s.active = some copyContext ∧ (s.queue 0).abortPending = false
    ∧ copyContext.done + 128 ≠ copyContext.record.rowLength * copyContext.record.rows
    ∧ 0 < freeEntries s ∧ (s.queue 1).state = .idle ∧ (s.queue 1).slot = .full shortBytes ∧ (s.queue 1).drain = false
    ∧ (s.queue 1).ring = some 2 ∧ s.currentLevel < (s.queue 1).level ∧ s.startOrder = [0] ++ 1 :: [2, 3, 4, 5, 6, 7]
    ∧ (∀ p ∈ s.startOrder, eligible s p = true → (s.queue p).level ≤ (s.queue 1).level)
    ∧ (∀ p ∈ [(0 : WqId)], eligible s p = true → (s.queue p).level < (s.queue 1).level)
    ∧ (∀ p ∈ busy.startOrder, eligible busy p = true → (busy.queue p).level ≤ busy.currentLevel)
    ∧ shortContext.done + 16 = shortContext.record.rowLength * shortContext.record.rows
    ∧ ((busy.setQueue 0 { busy.queue 0 with abortPending := true }).queue 0).abortPending = true
    ∧ { busy with engine := .stopping }.engine = .stopping
    ∧ u.active = some copyContext ∧ u.waitingUpdate ≠ none ∧ u.admin = .executing b .waitUpdate := by
  decide +kernel

/-- The example's table: entry 3 denies WQ5, nothing covers 0x2000000, and entry 1 is the lowest that covers 0x102000. -/
theorem witness_LookupFollowsItsChecks :
    let inside (i : ApId) (a : Nat) : Prop :=
      (exampleTable.aperture i).valid = true ∧ (exampleTable.aperture i).base ≤ a
        ∧ a + 256 ≤ (exampleTable.aperture i).base + 2 ^ (exampleTable.aperture i).exponent
    ((exampleTable.aperture 3).kind = .deny ∧ inside 3 0x300F00 ∧ (exampleTable.aperture 3).queues.getLsbD 4 = true)
    ∧ (∀ i, ¬ inside i 0x2000000)
    ∧ (∀ i, ¬ ((exampleTable.aperture i).kind = .deny ∧ inside i 0x102000))
    ∧ (exampleTable.aperture 1).kind ≠ .deny ∧ inside 1 0x102000 ∧ (∀ j, j < 1 → ¬ inside j 0x102000)
    ∧ (exampleTable.aperture 1).queues.getLsbD 2 = true ∧ (exampleTable.aperture 1).write = false
    ∧ (exampleTable.aperture 1).read = true ∧ (exampleTable.aperture 0).queues.getLsbD 2 = false := by
  decide +kernel

theorem witness_RecordsSegmentsAndRequestsKeepTheirBounds :
    startCheck copyContext.record = .goes ∧ 1 < copyContext.record.rows
    ∧ PositionOk { copyContext with row := 1, offset := 996, done := 1996 }
    ∧ (zeros 256).length = (⟨0x30, 0x30, 256⟩ : OperandRange).length
    ∧ (⟨0x30, 0x30, 256⟩ : OperandRange).system % 64 ≠ 0 ∧ (⟨0x40, 0x40, 256⟩ : OperandRange).system % 64 = 0
    ∧ copyContext.record.type = 1 ∧ (workRecord (workBytes 3 4 0 0x100 0x200 16 1 0 0 0)).type = 3
    ∧ 0 < copyContext.record.width ∧ copyContext.record.width ≤ copyContext.record.pattern.length
    ∧ (zeros 16).length % copyContext.record.width = 0 := by
  decide +kernel

/-- A state with two contexts, a drain, a record in execution and a fetch in flight meets every law at once. -/
def lawful : State :=
  { nested.setQueue 0 { nested.queue 0 with slot := .filling false } with
    admin := .executing (adminRecord 12 0 0 []) (.checked none), fetch := some ⟨0, 1, 1, true⟩
    reserved := nested.reserved ++ [⟨.fetch, 1⟩], pending := [.mark] }

/-- The verdict held in that state is the one R135 gives. -/
theorem lawful_due : DueLaw lawful := by
  refine ⟨fun b v h => ?_, by decide, by decide⟩
  cases h
  exact ⟨by decide +kernel, by decide⟩

theorem witness_EveryStepKeepsOwnershipAndQueueFlags :
    OwnershipLaw lawful ∧ QueueFlagLaw lawful ∧ EngineLaw lawful ∧ lawful.pending ≠ [] := by decide +kernel
theorem witness_EveryStepKeepsThePendingList : PendingListLaw lawful ∧ lawful.pending ≠ [] := by decide +kernel
theorem witness_EveryStepKeepsTheEngineLaw : EngineLaw lawful ∧ lawful.pending ≠ [] := by decide +kernel
theorem witness_EveryStepKeepsTheSchedulerLaws :
    EngineLaw lawful ∧ DueLaw lawful ∧ SchedulerLaw lawful ∧ StartOrderLaw lawful :=
  ⟨by decide +kernel, lawful_due, by decide +kernel, by decide +kernel⟩
theorem witness_EveryStepKeepsIndicesAndPositions :
    DueLaw lawful ∧ CounterLaw lawful ∧ SettingsLaw lawful ∧ WorkRingLaw lawful ∧ PositionLaw lawful :=
  ⟨lawful_due, by decide +kernel, by decide +kernel, by decide +kernel, by decide +kernel⟩
theorem witness_EveryStepKeepsRingsBound :
    OwnershipLaw lawful ∧ QueueFlagLaw lawful ∧ PendingListLaw lawful ∧ EngineLaw lawful ∧ DueLaw lawful ∧ BindingLaw lawful
    ∧ RingLaw lawful ∧ RingIndexLaw lawful :=
  ⟨by decide +kernel, by decide +kernel, by decide +kernel, by decide +kernel, lawful_due, by decide +kernel, by decide +kernel,
   by decide +kernel⟩

end Sys2Proof.Tests
end

section
/-! PROOF. What ends and completions leave alone, and how the model's own operations for them agree with the words of Safety.lean
(`withEntry`, `withCompletion`, `withEnd`, `withAbortDone`, `withActiveEnd`, `goesOn`). -/

namespace Sys2Proof.Machine

/-! ## What an end leaves alone -/

/-- The contexts, and the segment in flight. -/
def State.moverPart (s : State) : Option Context × List Context × Option Segment := (s.active, s.stack, s.segment)

@[simp] theorem place_moverPart (h : Holder) (c : CqId) (e : Entry) (x n : Bool) (s : State) :
    (place h c e x n s).moverPart = s.moverPart := by
  rcases place_cases h c e x n s with ⟨_, hp⟩ | ⟨_, _, hp⟩ | ⟨_, _, hp⟩ <;> rw [hp] <;> rfl

@[simp] theorem place_admin (h : Holder) (c : CqId) (e : Entry) (x n : Bool) (s : State) :
    (place h c e x n s).admin = s.admin := by
  rcases place_cases h c e x n s with ⟨_, hp⟩ | ⟨_, _, hp⟩ | ⟨_, _, hp⟩ <;> rw [hp] <;> rfl

@[simp] theorem place_queues (h : Holder) (c : CqId) (e : Entry) (x n : Bool) (s : State) :
    (place h c e x n s).queues = s.queues := by
  rcases place_cases h c e x n s with ⟨_, hp⟩ | ⟨_, _, hp⟩ | ⟨_, _, hp⟩ <;> rw [hp] <;> rfl

@[simp] theorem place_queue (h : Holder) (c : CqId) (e : Entry) (x n : Bool) (s : State) (q : WqId) :
    (place h c e x n s).queue q = s.queue q := by
  simp [State.queue]

@[simp] theorem emptySlot_moverPart (q : WqId) (s : State) : (emptySlot q s).moverPart = s.moverPart := by
  rcases emptySlot_cases q s with ⟨_, h⟩ | ⟨_, h⟩ | ⟨_, _, h⟩ | ⟨_, _, h⟩ <;> rw [h] <;> rfl

@[simp] theorem emptySlot_admin (q : WqId) (s : State) : (emptySlot q s).admin = s.admin := by
  rcases emptySlot_cases q s with ⟨_, h⟩ | ⟨_, h⟩ | ⟨_, _, h⟩ | ⟨_, _, h⟩ <;> rw [h] <;> rfl

@[simp] theorem setQueue_moverPart (s : State) (q : WqId) (d : Queue) : (s.setQueue q d).moverPart = s.moverPart := rfl

@[simp] theorem endContext_moverPart (c : Context) (st : Status) (sub : Sub) (p d : Nat) (b : Bool) (s : State) :
    (endContext c st sub p d b s).moverPart = s.moverPart := by
  unfold endContext
  dsimp only
  split <;> split <;> simp [placeNotice]

@[simp] theorem endContext_admin (c : Context) (st : Status) (sub : Sub) (p d : Nat) (b : Bool) (s : State) :
    (endContext c st sub p d b s).admin = s.admin := by
  unfold endContext
  dsimp only
  split <;> split <;> simp [placeNotice]

@[simp] theorem completeAdmin_moverPart (b : List Byte) (st : Status) (sub : Sub) (d : Nat) (s : State) :
    (completeAdmin b st sub d s).moverPart = s.moverPart :=
  place_moverPart ..

@[simp] theorem finishAbort_moverPart (b : List Byte) (q : WqId) (sub : Sub) (s : State) :
    (finishAbort b q sub s).moverPart = s.moverPart := by
  simp [finishAbort]

/-! ## Entries and completions (R110, R136) -/

theorem withEntry_broken {c : CqId} {s : State} (e : Entry) (n : Bool) (hb : (s.ring c).state = .broken) :
    withEntry c e n s = s.setRing c { s.ring c with discarded := min ((s.ring c).discarded + 1) 4294967295 } :=
  if_pos hb

theorem withEntry_occupied {c : CqId} {s : State} (e : Entry) (n : Bool) (hb : (s.ring c).state ≠ .broken) :
    withEntry c e n s = { s with occupied := s.occupied ++ [⟨c, e, n, false⟩] } :=
  if_neg hb

/-- An entry that is not suppressed is handed to the completion unit. -/
theorem place_eq_withEntry (h : Holder) (c : CqId) (e : Entry) (n : Bool) (s : State) :
    place h c e false n s = withEntry c e n (release h s) := by
  by_cases hb : (s.ring c).state = .broken
  · exact (place_broken h c e n s hb).trans (withEntry_broken (s := release h s) e n hb).symm
  · exact (place_occupied h c e n s hb).trans (withEntry_occupied (s := release h s) e n hb).symm

theorem completeAdmin_eq_withCompletion (b : List Byte) (st : Status) (sub : Sub) (d : Nat) (s : State) :
    completeAdmin b st sub d s = withCompletion s b st sub d := by
  by_cases hb : (s.ring 0).state = .broken
  · exact (completeAdmin_broken b st sub d s hb).trans
      (withEntry_broken (s := { s with reserved := removeHolder .adminRecord s.reserved, admin := .idle }) _ _ hb).symm
  · exact (completeAdmin_occupied b st sub d s hb).trans
      (withEntry_occupied (s := { s with reserved := removeHolder .adminRecord s.reserved, admin := .idle }) _ _ hb).symm

theorem finishAbort_eq_withAbortDone (b : List Byte) (q : WqId) (sub : Sub) (s : State) :
    finishAbort b q sub s = withAbortDone b q sub s :=
  completeAdmin_eq_withCompletion ..

/-! ## Ends (R33, R34, R43) -/

theorem Status.isFault_iff (st : Status) :
    st.isFault = true ↔ st = .malformed ∨ st = .align ∨ st = .aperture ∨ st = .memError ∨ st = .memTimeout := by
  cases st <;> simp [Status.isFault]

theorem suppress_eq (r : WorkRecord) : r.suppress = decide (r.flags % 2 = 1) := by
  simp [WorkRecord.suppress, bitOf, Bool.beq_eq_decide_eq]

theorem notifyNow_eq (r : WorkRecord) : r.notifyNow = (r.flags / 2 % 2 == 1) := rfl

theorem nextState_halted_iff (s : State) (d : Queue) (st : Status) (byAbort : Bool) :
    nextState s d st byAbort = .halted ↔
      ¬ (byAbort = true ∨ s.engine = .stopping ∨ d.drain = true) ∧ st.isFault = true ∧ d.policy = .halt := by
  unfold nextState
  split_ifs <;> simp_all

theorem nextState_disables_iff (s : State) (d : Queue) (st : Status) (byAbort : Bool) :
    (nextState s d st byAbort = .byAbort ∨ nextState s d st byAbort = .byStop ∨ nextState s d st byAbort = .byDrain) ↔
      byAbort = true ∨ s.engine = .stopping ∨ d.drain = true := by
  unfold nextState
  split_ifs <;> simp_all

/-- The queue file's part of an end, with the rows of R34's table spelled out. -/
theorem endQueue_nextState (s : State) (d : Queue) (st : Status) (byAbort : Bool) :
    let fault : Prop := st = .malformed ∨ st = .align ∨ st = .aperture ∨ st = .memError ∨ st = .memTimeout
    let disables : Prop := byAbort = true ∨ s.engine = .stopping ∨ d.drain = true
    let halts : Prop := ¬ disables ∧ fault ∧ d.policy = .halt
    endQueue d st (nextState s d st byAbort) =
      { d with
        state := if disables then .disabled else if halts then .halted else .idle
        haltCause := if halts then .record else d.haltCause
        drain := false, abortPending := false, hold := false
        endedOk := if st = .ok ∨ st = .mismatch then min (d.endedOk + 1) 4294967295 else d.endedOk
        endedFault := if fault then min (d.endedFault + 1) 4294967295 else d.endedFault
        endedAborted := if st = .aborted then min (d.endedAborted + 1) 4294967295 else d.endedAborted } := by
  intro fault disables halts
  have hfault : st.isFault = true ↔ fault := st.isFault_iff
  have hfaultCount : (if st.isFault = true then bump d.endedFault else d.endedFault)
      = if fault then min (d.endedFault + 1) 4294967295 else d.endedFault := if_congr hfault rfl rfl
  have hrow : nextState s d st byAbort = .halted ↔ halts := by rw [nextState_halted_iff, hfault]
  simp only [endQueue, hfaultCount]
  by_cases hh : halts
  · simp only [hrow.mpr hh, if_pos hh, if_neg hh.1]
    rfl
  · have hn : nextState s d st byAbort ≠ .halted := mt hrow.mp hh
    have hdis := nextState_disables_iff s d st byAbort
    by_cases hd : disables
    · simp only [if_neg hh, if_pos hd]
      rcases hdis.mpr hd with h | h | h <;> rw [h] <;> rfl
    · have hidle : nextState s d st byAbort = .idle := by
        cases hr : nextState s d st byAbort with
        | idle => rfl
        | halted => exact absurd hr hn
        | byAbort => exact absurd (hdis.mp (.inl hr)) hd
        | byStop => exact absurd (hdis.mp (.inr (.inl hr))) hd
        | byDrain => exact absurd (hdis.mp (.inr (.inr hr))) hd
      simp only [if_neg hh, if_neg hd, hidle]
      rfl

/-- The entry of an end: none under SUPPRESS after OK or MISMATCH (R4, R33). -/
theorem place_told (h : Holder) (c : CqId) (e : Entry) (r : WorkRecord) (st : Status) (s : State) :
    place h c e (r.suppress && (st == .ok || st == .mismatch)) r.notifyNow s =
      if r.flags % 2 = 1 ∧ (st = .ok ∨ st = .mismatch) then release h s
      else withEntry c e (r.flags / 2 % 2 == 1) (release h s) := by
  by_cases hs : r.flags % 2 = 1 ∧ (st = .ok ∨ st = .mismatch)
  · rw [if_pos hs, ← place_suppressed h c e r.notifyNow s]
    congr 1
    simpa [suppress_eq] using hs
  · rw [if_neg hs, ← notifyNow_eq, ← place_eq_withEntry]
    congr 1
    simpa [suppress_eq] using hs

/-- The DRAINED notice of a drain (R34, R143). -/
theorem placeNotice_eq (q : WqId) (d : Queue) (st : Status) (byAbort : Bool) (s t : State) (hd : d.drain = true) :
    placeNotice q (nextState s d st byAbort) t =
      withEntry 0 ⟨.drained, if byAbort then .byAbort else if s.engine = .stopping then .byStop else .byDrain, q.val + 1, 0,
        (t.queue q).head, 0, 0⟩ false (release (.drain q) t) := by
  rw [placeNotice, place_eq_withEntry]
  congr 2
  unfold nextState
  split_ifs <;> rfl

/-- The end of a context is the one that Safety.lean spells out. -/
theorem endContext_eq_withEnd (c : Context) (st : Status) (sub : Sub) (p d : Nat) (byAbort : Bool) (s : State) :
    endContext c st sub p d byAbort s = withEnd c st sub p d byAbort s := by
  unfold endContext withEnd
  extract_lets q n entry suppressed s1 s2 s3 w q' fine fault disables halts freed told left noted
  have htold : s1 = told := place_told (.context c.queue) c.ring entry c.record st s
  have hleft : s2 = left := by
    show s1.setQueue c.queue (endQueue q st n) = told.setQueue c.queue _
    rw [htold, endQueue_nextState]
  have hhead : (left.queue c.queue).head = q.head := by simp [left, w, q', q]
  have hnoted : s3 = noted := by
    show (if q.drain = true then placeNotice c.queue n s2 else s2) = if q.drain = true then _ else left
    rw [hleft]
    by_cases hd : q.drain = true
    · rw [if_pos hd, if_pos hd, placeNotice_eq c.queue q st byAbort s left hd, hhead]
      rfl
    · rw [if_neg hd, if_neg hd]
  have hhalts : n = .halted ↔ halts := by rw [nextState_halted_iff, Status.isFault_iff]
  rw [hnoted]
  exact if_congr hhalts rfl rfl

/-- The record that `awaitedReport` finds. -/
theorem awaitedReport_eq_some_iff {s : State} {q : WqId} {b : List Byte} :
    awaitedReport s q = some b ↔ s.admin = .executing b (.waitReport q) := by
  unfold awaitedReport
  split
  · next b' q' h =>
    rw [h]
    by_cases hq : q' = q <;> simp [hq]
  · next h => exact ⟨fun he => (nomatch he), fun he => absurd he (h b q)⟩

theorem awaitedReport_eq_none {s : State} {q : WqId} (h : ∀ b, s.admin ≠ .executing b (.waitReport q)) :
    awaitedReport s q = none :=
  Option.eq_none_iff_forall_ne_some.mpr fun b hb => h b (awaitedReport_eq_some_iff.mp hb)

/-- With no ABORT QUEUE waiting for its queue, the end of the active context is the context's end. -/
theorem endActive_of_no_report {c : Context} {s : State} (st : Status) (sub : Sub) (p d : Nat) (ha : s.active = some c)
    (hn : ∀ b, s.admin ≠ .executing b (.waitReport c.queue)) :
    endActive st sub p d s
      = endContext c st sub p d (s.queue c.queue).abortPending { s with active := none, currentLevel := 0 } := by
  have hr : awaitedReport (endContext c st sub p d (s.queue c.queue).abortPending
      { s with active := none, currentLevel := 0 }) c.queue = none := awaitedReport_eq_none (by simpa using hn)
  simp only [endActive, ha, hr]

/-- An ABORT QUEUE that waits for the queue's report is finished with it (R43, R145). -/
theorem endActive_of_report {c : Context} {b : List Byte} {s : State} (st : Status) (sub : Sub) (p d : Nat)
    (ha : s.active = some c) (hb : s.admin = .executing b (.waitReport c.queue)) :
    endActive st sub p d s
      = finishAbort b c.queue (abortReport st)
          (endContext c st sub p d (s.queue c.queue).abortPending { s with active := none, currentLevel := 0 }) := by
  have hr : awaitedReport (endContext c st sub p d (s.queue c.queue).abortPending
      { s with active := none, currentLevel := 0 }) c.queue = some b := awaitedReport_eq_some_iff.mpr (by simpa using hb)
  simp only [endActive, ha, hr]

/-- The end of the active context is the one that Safety.lean spells out. -/
theorem endActive_eq_withActiveEnd {c : Context} {s : State} (st : Status) (sub : Sub) (p d : Nat) (ha : s.active = some c) :
    endActive st sub p d s = withActiveEnd c st sub p d s := by
  unfold withActiveEnd
  extract_lets x
  split
  · next b q hb =>
    by_cases hq : q = c.queue
    · subst hq
      rw [if_pos rfl, endActive_of_report st sub p d ha hb, endContext_eq_withEnd, finishAbort_eq_withAbortDone]
      cases st <;> rfl
    · rw [if_neg hq, endActive_of_no_report st sub p d ha, endContext_eq_withEnd]
      simp [hb, hq]
  · next h => rw [endActive_of_no_report st sub p d ha fun b => h b c.queue, endContext_eq_withEnd]

/-! ## Going on (R5, R9, R80) -/

/-- The next segment of the active context, with selection after an end at its formation. -/
theorem selectAfter_beginSegment {c : Context} {s : State} (ha : s.active = some c) :
    selectAfter (beginSegment s) = goesOn c false s := by
  simp only [beginSegment, ha, goesOn]
  cases lookupOperands s c with
  | ok r => rfl
  | error f => simp [selectAfter, endActive_eq_withActiveEnd _ _ _ _ ha]

/-- The start of a queue's record, with selection after an end at its start. -/
theorem selectAfter_startRecord {c : Context} {q : WqId} {s : State} (ha : (makeActive q s).active = some c) :
    selectAfter (startRecord q s) = goesOn c true (makeActive q s) := by
  cases hv : startCheck c.record with
  | fails st sub => simp [startRecord, ha, goesOn, hv, selectAfter, endActive_eq_withActiveEnd _ _ _ _ ha]
  | mark => simp [startRecord, ha, goesOn, hv, selectAfter, endActive_eq_withActiveEnd _ _ _ _ ha]
  | goes =>
    simp only [startRecord, ha, hv]
    rw [selectAfter_beginSegment ha]
    simp only [goesOn, hv]
    rfl

end Sys2Proof.Machine
end

section
/-! PROOF. The boundary of a segment (R35, R37, R83): the statement BoundaryPreemptsOrContinues. -/

namespace Sys2Proof.Machine

/-! ## The waiting update (R83, R149) -/

theorem awaitedUpdate_eq_none {s : State} (h : s.waitingUpdate = none ∨ ∀ b, s.admin ≠ .executing b .waitUpdate) :
    awaitedUpdate s = none := by
  unfold awaitedUpdate
  split
  · next b u hb hu =>
    rcases h with h | h
    · rw [h] at hu; cases hu
    · exact absurd hb (h b)
  · rfl

theorem awaitedUpdate_eq_some {s : State} {b : List Byte} (hu : s.waitingUpdate ≠ none)
    (hb : s.admin = .executing b .waitUpdate) : awaitedUpdate s = some b := by
  obtain ⟨u, hu⟩ := Option.ne_none_iff_exists'.mp hu
  simp only [awaitedUpdate, hb, hu]

theorem applyWaiting_of_none {s : State} (h : s.waitingUpdate = none) : applyWaiting s = s := by
  simp only [applyWaiting, h]

theorem applyWaiting_of_load {s : State} {i : ApId} {e : Aperture} (h : s.waitingUpdate = some ⟨i, some e⟩) :
    applyWaiting s = { s.setAperture i e with waitingUpdate := none } := by
  simp only [applyWaiting, h, applyUpdate]

theorem applyWaiting_of_clear {s : State} {i : ApId} (h : s.waitingUpdate = some ⟨i, none⟩) :
    applyWaiting s = { s.setAperture i { s.aperture i with valid := false } with waitingUpdate := none } := by
  simp only [applyWaiting, h, applyUpdate]

/-- A boundary at which no aperture command waits. -/
theorem segmentBoundary_of_none {c : Context} {s : State} (o : Outcome) (ha : s.active = some c)
    (hu : awaitedUpdate s = none) : segmentBoundary o s = boundaryRule c o { applyWaiting s with segment := none } := by
  simp only [segmentBoundary, ha, hu]

/-- A boundary at which an aperture command waits for its update. -/
theorem segmentBoundary_of_some {c : Context} {s : State} {b : List Byte} (o : Outcome) (ha : s.active = some c)
    (hu : awaitedUpdate s = some b) :
    segmentBoundary o s =
      selectOnFree (boundaryRule c o { applyWaiting s with segment := none })
        (completeAdmin b .ok .none 0 (boundaryRule c o { applyWaiting s with segment := none })) := by
  simp only [segmentBoundary, ha, hu]

/-! ## The position after a segment (R21) -/

@[simp] theorem advance_queue (c : Context) (n : Nat) : (advance c n).queue = c.queue := by unfold advance; split <;> rfl
@[simp] theorem advance_record (c : Context) (n : Nat) : (advance c n).record = c.record := by unfold advance; split <;> rfl
@[simp] theorem advance_index (c : Context) (n : Nat) : (advance c n).index = c.index := by unfold advance; split <;> rfl
@[simp] theorem advance_ring (c : Context) (n : Nat) : (advance c n).ring = c.ring := by unfold advance; split <;> rfl
@[simp] theorem advance_done (c : Context) (n : Nat) : (advance c n).done = c.done + n := by unfold advance; split <;> rfl

/-! ## The highest eligible level and its nearest queue (R29, R30) -/

theorem foldl_max_le_iff {α : Type} (f : α → Nat) (l : List α) (a b : Nat) :
    l.foldl (fun m q => max m (f q)) a ≤ b ↔ a ≤ b ∧ ∀ q ∈ l, f q ≤ b := by
  induction l generalizing a with
  | nil => simp
  | cons x xs ih => simp [ih, and_assoc]

theorem eligibleLevel_le_iff (s : State) (n : Nat) :
    eligibleLevel s ≤ n ↔ freeEntries s = 0 ∨ ∀ p ∈ s.startOrder, eligible s p = true → (s.queue p).level ≤ n := by
  unfold eligibleLevel hasFree
  by_cases hf : 0 < freeEntries s
  · simp [hf, foldl_max_le_iff, Nat.pos_iff_ne_zero.mp hf]
  · simp [Nat.eq_zero_of_not_pos hf]

/-- E is the level of an eligible queue that no other exceeds, when an entry is free (R30). -/
theorem eligibleLevel_eq {s : State} {q : WqId} (hf : 0 < freeEntries s) (hq : q ∈ s.startOrder) (he : eligible s q = true)
    (hmax : ∀ p ∈ s.startOrder, eligible s p = true → (s.queue p).level ≤ (s.queue q).level) :
    eligibleLevel s = (s.queue q).level := by
  apply Nat.le_antisymm
  · exact (eligibleLevel_le_iff s _).mpr (.inr hmax)
  · rcases (eligibleLevel_le_iff s _).mp (Nat.le_refl (eligibleLevel s)) with h | h
    · omega
    · exact h q hq he

/-- The first of the eligible queues of the level (R29). -/
theorem nearest_eq {s : State} {q : WqId} {before after : List WqId} (ho : s.startOrder = before ++ q :: after)
    (he : eligible s q = true) (hb : ∀ p ∈ before, eligible s p = true → (s.queue p).level < (s.queue q).level) :
    nearest s (s.queue q).level = some q := by
  have hnone : before.find? (fun p => eligible s p && (s.queue p).level == (s.queue q).level) = none := by
    rw [List.find?_eq_none]
    intro p hp h
    rw [Bool.and_eq_true, beq_iff_eq] at h
    have := hb p hp h.1
    omega
  rw [nearest, ho, List.find?_append, hnone]
  simp [he]

theorem eligible_iff (s : State) (q : WqId) :
    eligible s q = true ↔ (s.queue q).state = .idle ∧ (s.queue q).drain = false ∧ ∃ b, (s.queue q).slot = .full b := by
  unfold eligible
  cases hs : (s.queue q).slot <;> simp [hs]

/-- The queue that preempts (R35 case 6, R37). -/
theorem preemptor_eq_some {s : State} {q : WqId} {before after : List WqId} (hf : 0 < freeEntries s)
    (he : eligible s q = true) (hl : s.currentLevel < (s.queue q).level) (ho : s.startOrder = before ++ q :: after)
    (hmax : ∀ p ∈ s.startOrder, eligible s p = true → (s.queue p).level ≤ (s.queue q).level)
    (hb : ∀ p ∈ before, eligible s p = true → (s.queue p).level < (s.queue q).level) : preemptor s = some q := by
  have hlevel := eligibleLevel_eq hf (by simp [ho]) he hmax
  simp only [preemptor, hlevel, if_pos hl, nearest_eq ho he hb]

theorem preemptor_eq_none {s : State}
    (h : freeEntries s = 0 ∨ ∀ p ∈ s.startOrder, eligible s p = true → (s.queue p).level ≤ s.currentLevel) :
    preemptor s = none := by
  simp only [preemptor, if_neg (Nat.not_lt.mpr ((eligibleLevel_le_iff s _).mpr h))]

/-! ## R35's cases after a success -/

/-- Steps 1 to 6 of a start from a FULL slot (R32). -/
theorem makeActive_of_full {s : State} {q : WqId} {b : List Byte} {r : CqId} (hb : (s.queue q).slot = .full b)
    (hr : (s.queue q).ring = some r) :
    makeActive q s =
      { s.setQueue q { s.queue q with head := ((s.queue q).head + 1) % (s.queue q).ringSize, slot := .empty, state := .running } with
        reserved := s.reserved ++ [⟨.context q, r⟩], startOrder := s.startOrder.filter (fun p => p ≠ q) ++ [q]
        active := some { queue := q, level := (s.queue q).level, record := workRecord b, index := (s.queue q).head, row := 0
                         offset := 0, done := 0, ring := r }
        currentLevel := (s.queue q).level } := by
  have hfilter : s.startOrder.filter (fun p => p != q) = s.startOrder.filter (fun p => p ≠ q) := by
    congr 1; funext p; simp [bne, Bool.beq_eq_decide_eq]
  simp only [makeActive, hb, hr, hfilter]
  rfl

/-- `s` with the active context `c` advanced by a segment of `n` bytes (R21). -/
def advanced (c : Context) (n : Nat) (s : State) : State := { s with active := some (advance c n) }

/-- R35's cases 3 to 7 in their order. -/
theorem boundaryRule_success (c : Context) (n : Nat) (s : State) :
    boundaryRule c (.success n) s =
      if c.done + n = c.record.rowLength * c.record.rows then
        select (withActiveEnd (advance c n) .ok .none (c.done + n) 0 (advanced c n s))
      else if (s.queue c.queue).abortPending = true then
        select (withActiveEnd (advance c n) .aborted .none (c.done + n) 0 (advanced c n s))
      else if s.engine = .stopping then withActiveEnd (advance c n) .stopped .none (c.done + n) 0 (advanced c n s)
      else
        match preemptor (advanced c n s) with
        | some q => selectAfter (startRecord q (pushActive (advance c n) (advanced c n s)))
        | none => goesOn (advance c n) false (advanced c n s) := by
  have ha : (advanced c n s).active = some (advance c n) := rfl
  rw [← endActive_eq_withActiveEnd _ _ _ _ ha, ← endActive_eq_withActiveEnd _ _ _ _ ha, ← endActive_eq_withActiveEnd _ _ _ _ ha,
    ← selectAfter_beginSegment ha, ← advance_done c n]
  rfl

/-- The context a queue's FULL slot starts (R32). -/
theorem preempts_eq_goesOn {c : Context} {n : Nat} {q : WqId} {r : CqId} {b : List Byte} {s : State} (hq : q ≠ c.queue)
    (hb : (s.queue q).slot = .full b) (hr : (s.queue q).ring = some r) :
    let x : Context :=
      { queue := q, level := (s.queue q).level, record := workRecord b, index := (s.queue q).head, row := 0, offset := 0
        done := 0, ring := r }
    selectAfter (startRecord q (pushActive (advance c n) (advanced c n s))) =
      goesOn x true
        { (s.setQueue c.queue { s.queue c.queue with
            state := .suspended, timesSuspended := min ((s.queue c.queue).timesSuspended + 1) 4294967295 }).setQueue q
            { s.queue q with head := ((s.queue q).head + 1) % (s.queue q).ringSize, slot := .empty, state := .running } with
          stack := advance c n :: s.stack, reserved := s.reserved ++ [⟨.context q, r⟩]
          startOrder := s.startOrder.filter (fun p => p ≠ q) ++ [q]
          active := some x, currentLevel := (s.queue q).level } := by
  intro x
  have hpushed : (pushActive (advance c n) (advanced c n s)).queue q = s.queue q := by
    show ((s.setQueue (advance c n).queue _).queue q) = _
    rw [State.setQueue_queue_ne _ _ _ _ (by simpa using hq)]
  have hmade := makeActive_of_full (s := pushActive (advance c n) (advanced c n s)) (q := q) (b := b) (r := r)
    (by rw [hpushed, hb]) (by rw [hpushed, hr])
  rw [hpushed] at hmade
  rw [selectAfter_startRecord (c := x) (by rw [hmade]), hmade]
  simp only [pushActive, advance_queue]
  rfl

/-- Settles O51: the waiting update first, then R35's table by `boundaryRule_success`, each end the one that Safety.lean spells out. -/
theorem boundaryPreemptsOrContinues : Obligations.BoundaryPreemptsOrContinues := by
  refine ⟨?_, ?_, ?_⟩
  · intro c o s ha x
    have hx : { applyWaiting s with segment := none } = x := by
      rcases hu : s.waitingUpdate with _ | ⟨i, _ | e⟩
      · simp only [x, hu, applyWaiting_of_none hu]
      · simp only [x, hu, applyWaiting_of_clear hu]
      · simp only [x, hu, applyWaiting_of_load hu]
    refine ⟨fun h => ?_, ?_⟩
    · rw [segmentBoundary_of_none o ha (awaitedUpdate_eq_none h), hx]
    · intro b hu hb y
      rw [segmentBoundary_of_some o ha (awaitedUpdate_eq_some hu hb), hx, completeAdmin_eq_withCompletion]
  · intro c s ha
    simp only [← endActive_eq_withActiveEnd _ _ _ _ ha]
    exact ⟨fun _ _ _ => rfl, fun _ _ => rfl, fun _ _ => rfl, fun _ => rfl⟩
  · intro c n s ha moved last y
    have hrule := boundaryRule_success c n s
    refine ⟨fun hl => ?_, fun hl hp => ?_, fun hl hp he => ?_, fun hl hp he => ?_⟩
    · rw [hrule, if_pos hl]
      rfl
    · rw [hrule, if_neg hl, if_pos hp]
      rfl
    · rw [hrule, if_neg hl, if_neg (by simp [hp]), if_pos he]
      rfl
    · rw [if_neg hl, if_neg (by simp [hp]), if_neg (by simp [he])] at hrule
      refine ⟨?_, fun h => ?_⟩
      · intro q r b before after hf hq hi hb hd hr hlv ho hmax hbefore x
        have heq : eligible s q = true := (eligible_iff s q).mpr ⟨hi, hd, b, hb⟩
        have hpre : preemptor (advanced c n s) = some q :=
          preemptor_eq_some (s := advanced c n s) hf heq hlv ho hmax hbefore
        rw [hrule, hpre]
        exact preempts_eq_goesOn hq hb hr
      · have hpre : preemptor (advanced c n s) = none := preemptor_eq_none (s := advanced c n s) h
        rw [hrule, hpre]
        rfl

end Sys2Proof.Machine
end

section
/-! PROOF. How the memory port hands the resolution of a request to its owner, and what the mover does with it (R14, R96 to R98):
the statements MoverKeepsWhatItReads, FailedRequestEndsTheRecord and LastAcknowledgmentEndsTheRecord. -/

namespace Sys2Proof.Machine

/-! ## A resolution reaches the owner of its tag -/

/-- The resolution that the owner of a request is handed when the command `answerOf` brings `r`: a response is read as R90 says. -/
def takenAs (kind : ReqKind) (length : Nat) : Resolution → Resolution
  | .data b => resolutionOf kind length (.data b)
  | .ack => resolutionOf kind length .ack
  | .error => resolutionOf kind length .error
  | .timeout => .timeout

theorem responseBytes_self (b : List Byte) : responseBytes b.length b = b := by
  apply List.ext_getElem
  · simp [responseBytes]
  · intro i _ hi
    simp [responseBytes, hi]

@[simp] theorem takenAs_data_self (b : List Byte) : takenAs .read b.length (.data b) = .data b := by
  simp [takenAs, resolutionOf, responseBytes_self]

@[simp] theorem takenAs_ack_write (n : Nat) : takenAs .write n .ack = .ack := rfl
@[simp] theorem takenAs_error (kind : ReqKind) (n : Nat) : takenAs kind n .error = .error := by cases kind <;> rfl
@[simp] theorem takenAs_timeout (kind : ReqKind) (n : Nat) : takenAs kind n .timeout = .timeout := rfl

theorem tagField_toNat (tg : TagId) : (tagField tg).toNat = tg.val := by
  have := tg.isLt
  simp only [tagField, BitVec.toNat_ofNat]
  omega

/-- A response on an IN_USE tag that finds the machine ready is handed to the tag's owner (R96, R97). -/
theorem takeResponse_inUse {tg : TagId} {o : Owner} {kind : ReqKind} {ad n tm : Nat} {s : State} (res : Result) (hr : Ready s)
    (ht : s.tag tg = .inUse o kind ad n tm) :
    takeResponse (tagField tg) res s
      = grantAll ((finishStep (resolve o (resolutionOf kind n res) s)).setTag tg .free) := by
  have hlt : (tagField tg).toNat < 32 := by rw [tagField_toNat]; exact tg.isLt
  have htg : (⟨(tagField tg).toNat, hlt⟩ : TagId) = tg := Fin.ext (tagField_toNat tg)
  rw [takeResponse, settleDue_of_nothingDue hr.2, unlessHeld_high _ hr.1]
  simp only [portTakes, hlt, dite_true, htg, ht, takeAnswer]

/-- The expiry of an IN_USE tag's timer is handed to the tag's owner (R98). -/
theorem takeTimeout_inUse {tg : TagId} {o : Owner} {kind : ReqKind} {ad n tm : Nat} {s : State}
    (ht : s.tag tg = .inUse o kind ad n tm) :
    takeTimeout tg s = finishStep (resolve o .timeout (handed tg .timeout s)) := by
  simp only [takeTimeout, ht]
  rfl

/-- The step that resolves a request: its owner takes the resolution, and the step ends as R96 to R98 say. -/
theorem exec_answerOf {tg : TagId} {o : Owner} {kind : ReqKind} {ad n tm : Nat} {s : State} (r : Resolution) (hr : Ready s)
    (ht : s.tag tg = .inUse o kind ad n tm) :
    ∃ t, exec (answerOf tg r) s = .next t
      ∧ EndsResolved tg r (resolve o (takenAs kind n r) (handed tg r s)) t := by
  cases r with
  | data b => exact ⟨_, rfl, takeResponse_inUse (.data b) hr ht⟩
  | ack => exact ⟨_, rfl, takeResponse_inUse .ack hr ht⟩
  | error => exact ⟨_, rfl, takeResponse_inUse .error hr ht⟩
  | timeout =>
    refine ⟨_, rfl, ?_⟩
    rw [settleDue_of_nothingDue hr.2]
    exact takeTimeout_inUse ht

section
variable {tg : TagId} {kind : ReqKind} {k ad n tm : Nat} {c : Context} {g g' : Segment} {s : State} {r : Resolution} {o : Outcome}

/-- A request of the segment that resolves and leaves the segment going on. -/
theorem moverTakes_continues (ha : s.active = some c) (hg : s.segment = some g) (hs : segmentTakes c g k r = .continues g') :
    moverTakes k r s = { s with segment := some g' } := by
  simp only [moverTakes, ha, hg, hs]

/-- A request of the segment that resolves and takes the segment to its boundary. -/
theorem moverTakes_boundary (ha : s.active = some c) (hg : s.segment = some g) (hs : segmentTakes c g k r = .boundary o) :
    moverTakes k r s = segmentBoundary o s := by
  simp only [moverTakes, ha, hg, hs]

theorem handed_active (ha : s.active = some c) : (handed tg r s).active = some c := by cases r <;> exact ha
theorem handed_segment (hg : s.segment = some g) : (handed tg r s).segment = some g := by cases r <;> exact hg

/-- The step of a request of the segment that leaves the segment going on. -/
theorem exec_answerOf_continues (hr : Ready s) (ht : s.tag tg = .inUse (.mover k) kind ad n tm) (ha : s.active = some c)
    (hg : s.segment = some g) (hs : segmentTakes c g k (takenAs kind n r) = .continues g') :
    ∃ t, exec (answerOf tg r) s = .next t ∧ EndsResolved tg r { handed tg r s with segment := some g' } t := by
  obtain ⟨t, ht, he⟩ := exec_answerOf r hr ht
  rw [resolve, moverTakes_continues (handed_active ha) (handed_segment hg) hs] at he
  exact ⟨t, ht, he⟩

/-- The step of a request of the segment that takes the segment to its boundary. -/
theorem exec_answerOf_boundary (hr : Ready s) (ht : s.tag tg = .inUse (.mover k) kind ad n tm) (ha : s.active = some c)
    (hg : s.segment = some g) (hs : segmentTakes c g k (takenAs kind n r) = .boundary o) :
    ∃ t, exec (answerOf tg r) s = .next t ∧ EndsResolved tg r (segmentBoundary o (handed tg r s)) t := by
  obtain ⟨t, ht, he⟩ := exec_answerOf r hr ht
  rw [resolve, moverTakes_boundary (handed_active ha) (handed_segment hg) hs] at he
  exact ⟨t, ht, he⟩

end

/-! ## R14's table -/

theorem allResolved_iff (g : Segment) : allResolved g = true ↔ ∀ q ∈ g.requests, q.progress = .resolved := by
  simp [allResolved]

theorem allResolved_eq_false_iff (g : Segment) : allResolved g = false ↔ ∃ q ∈ g.requests, q.progress ≠ .resolved := by
  simp [allResolved]

/-- The segment settles: a failure has been taken and it waits for the requests still out (R14, R22). -/
def Segment.Settles (g : Segment) : Prop := ∃ f, g.phase = .settling ∧ g.failure = some f

theorem Segment.not_settles_of_phase {g : Segment} (h : g.phase ≠ .settling) : ¬ g.Settles := fun ⟨_, hp, _⟩ => h hp

theorem Segment.not_settles_of_failure {g : Segment} (h : g.failure = none) : ¬ g.Settles := fun ⟨_, _, hf⟩ => by
  simp [h] at hf

/-- In SETTLING whatever resolves is set aside (R22). -/
theorem segmentTakes_settling {c : Context} {g : Segment} {k : Nat} {f : SegFailure} (r : Resolution)
    (hp : g.phase = .settling) (hf : g.failure = some f) : segmentTakes c g k r = settle f (resolveRequest g k none) := by
  simp only [segmentTakes, hp, hf]

/-- Outside SETTLING the last data takes a COMPARE to its boundary and a COPY to its writes; other data is kept (R13, R14). -/
theorem segmentTakes_data {c : Context} {g : Segment} (k : Nat) (b : List Byte) (hs : ¬ g.Settles) :
    segmentTakes c g k (.data b) =
      if allResolved (resolveRequest g k (some b)) = false then .continues (resolveRequest g k (some b))
      else if c.record.type = typeCompare then .boundary (compareOutcome c (resolveRequest g k (some b)))
      else .continues (enterWriting c (resolveRequest g k (some b))) := by
  unfold segmentTakes
  split
  · next f hp hf => exact absurd ⟨f, hp, hf⟩ hs
  · simp

/-- Outside SETTLING an acknowledgment among others open is noted, and the last one is the segment's success (R14). -/
theorem segmentTakes_ack {c : Context} {g : Segment} (k : Nat) (hs : ¬ g.Settles) :
    segmentTakes c g k .ack =
      if allResolved (resolveRequest g k none) = false then .continues (resolveRequest g k none)
      else .boundary (.success g.length) := by
  unfold segmentTakes
  split
  · next f hp hf => exact absurd ⟨f, hp, hf⟩ hs
  · simp

/-- Outside SETTLING an error or a timeout is the failure taken (R22). -/
theorem segmentTakes_failure {c : Context} {g : Segment} {r : Resolution} (k : Nat) (hs : ¬ g.Settles)
    (hr : r = .error ∨ r = .timeout) :
    segmentTakes c g k r = settle (failureOf g k (r == .timeout)) (resolveRequest g k none) := by
  unfold segmentTakes
  split
  · next f hp hf => exact absurd ⟨f, hp, hf⟩ hs
  · rcases hr with rfl | rfl <;> rfl

/-! ## COMPARE (R20) -/

/-- The multiples of `w` are searched in ascending order, and the first hit decides. -/
theorem find?_multiples {n w j : Nat} {p : Nat → Bool} (hj : j < n) (hp : p (j * w) = true)
    (hb : ∀ i, i < j → p (i * w) = false) : ((List.range n).map fun k => k * w).find? p = some (j * w) := by
  rw [List.find?_map, List.find?_range_eq_some.mpr]
  · rfl
  · exact ⟨by simpa using hp, by simpa using hj, fun i hi => by simp [hb i hi]⟩

/-- The first differing element, where every earlier one agrees (R20). -/
theorem firstDifference_eq_some {w j : Nat} {a b : List Byte} (hj : j < a.length / w)
    (hd : slice a (j * w) w ≠ slice b (j * w) w) (hb : ∀ i, i < j → slice a (i * w) w = slice b (i * w) w) :
    firstDifference w a b = some (j * w) :=
  find?_multiples hj (by simpa using hd) fun i hi => by simp [hb i hi]

/-- No differing element (R20). -/
theorem firstDifference_eq_none {w : Nat} {a b : List Byte}
    (h : ∀ j, j < a.length / w → slice a (j * w) w = slice b (j * w) w) : firstDifference w a b = none := by
  simpa [firstDifference] using h

/-- What an operand's resolved reads have brought, with the operand and the kind named by a proposition. -/
theorem readBytes_eq (o : Operand) (l : List SegRequest) :
    readBytes o l = (l.filter fun q => q.operand = o ∧ q.kind = .read).flatMap fun q => q.data := by
  unfold readBytes
  congr 2
  funext q
  simp [Bool.beq_eq_decide_eq]

theorem enterWriting_eq {c : Context} {g : Segment} {d : OperandRange} (hd : g.dest = some d) :
    enterWriting c g = { g with
      requests := rangeRequests .dest .write d
        (if c.record.swap then swapElements c.record.width (readBytes .source g.requests) else readBytes .source g.requests)
      readData := readBytes .source g.requests, phase := .writing } := by
  obtain ⟨length, source, dest, requests, readData, failure, phase⟩ := g
  cases hd
  rfl

/-- The last data of a COPY takes the segment to its writes (R13, R14, R17). -/
theorem segmentTakes_data_copy {c : Context} {g : Segment} {d : OperandRange} {k : Nat} {b : List Byte} (hs : ¬ g.Settles)
    (hall : allResolved (resolveRequest g k (some b)) = true) (ht : c.record.type = typeCopy) (hd : g.dest = some d) :
    segmentTakes c g k (.data b) =
      .continues { g with
        requests := rangeRequests .dest .write d
          (if c.record.swap then swapElements c.record.width (readBytes .source (resolveRequest g k (some b)).requests)
           else readBytes .source (resolveRequest g k (some b)).requests)
        readData := readBytes .source (resolveRequest g k (some b)).requests, phase := .writing } := by
  rw [segmentTakes_data k b hs, if_neg (by simp [hall]), if_neg (by simp [ht, typeCopy, typeCompare]),
    enterWriting_eq (g := resolveRequest g k (some b)) hd]
  rfl

/-- The last data of a COMPARE takes the segment to its boundary (R14, R20). -/
theorem segmentTakes_data_compare {c : Context} {g : Segment} {k : Nat} {b : List Byte} (hs : ¬ g.Settles)
    (hall : allResolved (resolveRequest g k (some b)) = true) (ht : c.record.type = typeCompare) :
    segmentTakes c g k (.data b) = .boundary (compareOutcome c (resolveRequest g k (some b))) := by
  rw [segmentTakes_data k b hs, if_neg (by simp [hall]), if_pos ht]

/-- Settles O42: the data is kept by `segmentTakes_data`; the last data of a COPY enters WRITING, that of a COMPARE is judged by the
first differing element. -/
theorem moverKeepsWhatItReads : Obligations.MoverKeepsWhatItReads := by
  intro tg k ad tm b c g s hr ht ha hg hp kept brought
  have hns : ¬ g.Settles := g.not_settles_of_phase (by simp [hp])
  have hbr (o : Operand) : readBytes o (resolveRequest g k (some b)).requests = brought o := readBytes_eq o _
  refine ⟨fun hopen => ?_, fun d hall htype hd => ?_, fun hall htype hw => ⟨fun j hj hne heq => ?_, fun heq => ?_⟩⟩
  · refine exec_answerOf_continues hr ht ha hg ?_
    rw [takenAs_data_self, segmentTakes_data k b hns, if_pos ((allResolved_eq_false_iff _).mpr hopen)]
    rfl
  · refine exec_answerOf_continues hr ht ha hg ?_
    rw [takenAs_data_self, segmentTakes_data_copy hns ((allResolved_iff _).mpr hall) htype hd, hbr]
  · refine exec_answerOf_boundary hr ht ha hg ?_
    rw [takenAs_data_self, segmentTakes_data_compare hns ((allResolved_iff _).mpr hall) htype, compareOutcome, hbr, hbr,
      firstDifference_eq_some hj hne heq]
  · refine exec_answerOf_boundary hr ht ha hg ?_
    rw [takenAs_data_self, segmentTakes_data_compare hns ((allResolved_iff _).mpr hall) htype, compareOutcome, hbr, hbr,
      firstDifference_eq_none heq]
    rfl

/-! ## Failures (R16, R22) -/

theorem settle_of_open {f : SegFailure} {g : Segment} (h : ∃ p ∈ g.requests, p.progress = .issued) :
    settle f g = .continues { g with failure := some f, phase := .settling } := by
  simp [settle, h]

theorem settle_of_closed {f : SegFailure} {g : Segment} (h : ∀ p ∈ g.requests, p.progress ≠ .issued) :
    settle f g = .boundary (failureOutcome f) := by
  rw [settle, if_neg]
  simpa using h

theorem failureOf_eq {g : Segment} {k : Nat} {q : SegRequest} (b : Bool) (h : g.requests[k]? = some q) :
    failureOf g k b = ⟨b, q.operand, q.engine⟩ := by
  simp only [failureOf, h]

theorem boundaryRule_failure (c : Context) (f : SegFailure) (s : State) :
    boundaryRule c (failureOutcome f) s =
      select (endActive (if f.timeout then .memTimeout else .memError) (.memory f.operand) c.done f.engine s) := by
  obtain ⟨timeout, o, e⟩ := f
  cases timeout <;> rfl

/-! ## Ends with nothing pending on the queue -/

/-- A placement on a ring that is not BROKEN. -/
theorem place_of_not_broken {c : CqId} {s : State} (h : Holder) (e : Entry) (sup n : Bool) (hb : (s.ring c).state ≠ .broken) :
    place h c e sup n s =
      { s with reserved := removeHolder h s.reserved, occupied := s.occupied ++ if sup then [] else [⟨c, e, n, false⟩] } := by
  cases sup with
  | false => exact place_occupied h c e n s hb
  | true =>
    rw [place_suppressed]
    simp only [if_true, List.append_nil]
    rfl

/-- What R34's table makes of a queue whose record ends with a fault outside STOPPING, with nothing pending. -/
theorem endQueue_fault {s : State} {q : Queue} {st : Status} (hf : st.isFault = true) (he : s.engine ≠ .stopping)
    (hd : q.drain = false) (hp : q.abortPending = false) :
    endQueue q st (nextState s q st false) =
      { q with
        state := if q.policy = .halt then .halted else .idle
        haltCause := if q.policy = .halt then .record else q.haltCause
        hold := false, endedFault := bump q.endedFault } := by
  have hst : ¬ (st = .ok ∨ st = .mismatch) ∧ st ≠ .aborted := by
    cases st <;> simp_all [Status.isFault]
  by_cases hh : q.policy = .halt <;> simp [endQueue, nextState, he, hd, hp, hf, hh, hst]

/-- The end with a fault status outside STOPPING and with nothing pending: HALTED under HALT, IDLE under SKIP (R34, R68, R69). -/
theorem endContext_fault {c : Context} {st : Status} {s : State} (sub : Sub) (p d : Nat) (hf : st.isFault = true)
    (he : s.engine ≠ .stopping) (hd : (s.queue c.queue).drain = false) (hp : (s.queue c.queue).abortPending = false)
    (hr : (s.ring c.ring).state ≠ .broken) :
    let q := s.queue c.queue
    let ended : State :=
      { s.setQueue c.queue { q with
          state := if q.policy = .halt then .halted else .idle
          haltCause := if q.policy = .halt then .record else q.haltCause
          hold := false, endedFault := bump q.endedFault } with
        reserved := removeHolder (.context c.queue) s.reserved
        occupied := s.occupied ++
          [⟨c.ring, ⟨st, sub, c.queue.val + 1, c.record.tag, (c.index + 1) % q.ringSize, p, d⟩, c.record.notifyNow, false⟩] }
    endContext c st sub p d false s = if q.policy = .halt then emptySlot c.queue ended else ended := by
  have hsup : (st == .ok || st == .mismatch) = false := by cases st <;> simp_all [Status.isFault]
  have hn : nextState s (s.queue c.queue) st false = .halted ↔ (s.queue c.queue).policy = .halt := by
    simp [nextState_halted_iff, he, hd, hf]
  simp only [endContext, endQueue_fault hf he hd hp, hd, hn, hsup, Bool.and_false, place_of_not_broken _ _ _ _ hr]
  rfl

/-- What R34's table makes of a queue whose record ends OK with no abort pending. -/
theorem endQueue_ok (s : State) {q : Queue} (hp : q.abortPending = false) :
    endQueue q .ok (nextState s q .ok false) =
      { q with
        state := if s.engine = .stopping ∨ q.drain = true then .disabled else .idle
        drain := false, hold := false, endedOk := bump q.endedOk } := by
  by_cases he : s.engine = .stopping
  · simp [endQueue, nextState, Status.isFault, he, hp]
  · by_cases hd : q.drain = true <;> simp [endQueue, nextState, Status.isFault, he, hd, hp]

/-- The end with OK with no abort pending: IDLE, or DISABLED by the stop or by the drain with its notice; no entry under SUPPRESS
(R4, R33, R34). -/
theorem endContext_ok {c : Context} {s : State} (p : Nat) (hp : (s.queue c.queue).abortPending = false)
    (hr : (s.ring c.ring).state ≠ .broken) (h0 : (s.ring 0).state ≠ .broken) :
    let q := s.queue c.queue
    let entry : Occupied :=
      ⟨c.ring, ⟨.ok, .none, c.queue.val + 1, c.record.tag, (c.index + 1) % q.ringSize, p, 0⟩, c.record.notifyNow, false⟩
    let notice : Occupied :=
      ⟨0, ⟨.drained, if s.engine = .stopping then .byStop else .byDrain, c.queue.val + 1, 0, q.head, 0, 0⟩, false, false⟩
    endContext c .ok .none p 0 false s =
      { s.setQueue c.queue { q with
          state := if s.engine = .stopping ∨ q.drain = true then .disabled else .idle
          drain := false, hold := false, endedOk := bump q.endedOk } with
        reserved := if q.drain then removeHolder (.drain c.queue) (removeHolder (.context c.queue) s.reserved)
                    else removeHolder (.context c.queue) s.reserved
        occupied := s.occupied ++ (if c.record.suppress then [] else [entry]) ++ (if q.drain then [notice] else []) } := by
  intro q entry notice
  have hplaced := place_of_not_broken (.context c.queue) entry.entry (c.record.suppress && true) c.record.notifyNow hr
  have hhalt : nextState s q .ok false ≠ .halted := fun h => by simpa [Status.isFault] using (nextState_halted_iff ..).mp h
  have hleft := endQueue_ok s hp
  unfold endContext
  extract_lets n e suppressed s1 s2 s3 base
  have hs2 : s2 = s1.setQueue c.queue _ := congrArg (s1.setQueue c.queue) hleft
  have hs1 : s1 = _ := hplaced
  rw [if_neg hhalt]
  by_cases hd : q.drain = true
  · have hs3 : s3 = placeNotice c.queue n s2 := if_pos hd
    have hring : (s2.ring 0).state ≠ .broken := by rw [hs2, hs1]; exact h0
    have hhead : (s2.queue c.queue).head = q.head := by rw [hs2, State.setQueue_queue_self]
    have hsub : drainSub n = if s.engine = .stopping then .byStop else .byDrain := by
      by_cases he : s.engine = .stopping <;> simp [n, nextState, drainSub, he, hd]
    rw [hs3, placeNotice, place_of_not_broken _ _ _ _ hring, hhead, hsub, hs2, hs1]
    simp only [if_pos hd, Bool.and_true]
    rfl
  · have hs3 : s3 = s2 := if_neg hd
    rw [hs3, hs2, hs1]
    simp only [if_neg hd, Bool.and_true, List.append_nil]
    rfl

/-! ## Boundaries that end the record -/

/-- A boundary with no aperture update waiting. -/
theorem segmentBoundary_of_no_update {c : Context} {s : State} (o : Outcome) (ha : s.active = some c)
    (hu : s.waitingUpdate = none) : segmentBoundary o s = boundaryRule c o { s with segment := none } := by
  rw [segmentBoundary_of_none o ha (awaitedUpdate_eq_none (.inl hu)), applyWaiting_of_none hu]

/-- A failed segment ends its record with the failure's status when nothing is pending on its queue (R22, R34, R68, R69). -/
theorem segmentBoundary_failed {c : Context} {s : State} (f : SegFailure) (ha : s.active = some c) (hu : s.waitingUpdate = none)
    (he : s.engine ≠ .stopping) (hd : (s.queue c.queue).drain = false) (hp : (s.queue c.queue).abortPending = false)
    (hn : ∀ b, s.admin ≠ .executing b (.waitReport c.queue)) (hr : (s.ring c.ring).state ≠ .broken) :
    let d := s.queue c.queue
    let ended : State :=
      { s.setQueue c.queue { d with
          state := if d.policy = .halt then .halted else .idle
          haltCause := if d.policy = .halt then .record else d.haltCause
          hold := false, endedFault := min (d.endedFault + 1) 4294967295 } with
        segment := none, active := none, currentLevel := 0, reserved := removeHolder (.context c.queue) s.reserved
        occupied := s.occupied ++
          [⟨c.ring, ⟨if f.timeout then .memTimeout else .memError, .memory f.operand, c.queue.val + 1, c.record.tag,
                     (c.index + 1) % d.ringSize, c.done, f.engine⟩, c.record.notifyNow, false⟩] }
    segmentBoundary (failureOutcome f) s = select (if d.policy = .halt then emptySlot c.queue ended else ended) := by
  have hf : Status.isFault (if f.timeout then .memTimeout else .memError) = true := by cases f.timeout <;> rfl
  have hend := endContext_fault (c := c) (s := { s with segment := none, active := none, currentLevel := 0 })
    (.memory f.operand) c.done f.engine hf he hd hp hr
  intro d ended
  rw [segmentBoundary_of_no_update _ ha hu, boundaryRule_failure,
    endActive_of_no_report (c := c) (s := { s with segment := none }) _ _ _ _ ha hn]
  simp only [show (({ s with segment := none } : State).queue c.queue).abortPending = false from hp]
  rw [hend]
  rfl

/-- The success of the last segment ends its record OK when no abort is pending on its queue (R4, R21, R34). -/
theorem segmentBoundary_last {c : Context} {s : State} (n : Nat) (ha : s.active = some c) (hu : s.waitingUpdate = none)
    (hl : c.done + n = c.record.rowLength * c.record.rows) (hp : (s.queue c.queue).abortPending = false)
    (hn : ∀ b, s.admin ≠ .executing b (.waitReport c.queue)) (hr : (s.ring c.ring).state ≠ .broken)
    (h0 : (s.ring 0).state ≠ .broken) :
    let d := s.queue c.queue
    let entry : Occupied :=
      ⟨c.ring, ⟨.ok, .none, c.queue.val + 1, c.record.tag, (c.index + 1) % d.ringSize, c.done + n, 0⟩, c.record.notifyNow, false⟩
    let notice : Occupied :=
      ⟨0, ⟨.drained, if s.engine = .stopping then .byStop else .byDrain, c.queue.val + 1, 0, d.head, 0, 0⟩, false, false⟩
    segmentBoundary (.success n) s =
      select
        { s.setQueue c.queue { d with
            state := if s.engine = .stopping ∨ d.drain = true then .disabled else .idle
            drain := false, hold := false, endedOk := min (d.endedOk + 1) 4294967295 } with
          segment := none, active := none, currentLevel := 0
          reserved := if d.drain then removeHolder (.drain c.queue) (removeHolder (.context c.queue) s.reserved)
                      else removeHolder (.context c.queue) s.reserved
          occupied := s.occupied ++ (if c.record.suppress then [] else [entry]) ++ (if d.drain then [notice] else []) } := by
  have hend := endContext_ok (c := advance c n) (s := { s with segment := none, active := none, currentLevel := 0 }) (c.done + n)
    (by rw [advance_queue]; exact hp) (by rw [advance_ring]; exact hr) h0
  intro d entry notice
  rw [segmentBoundary_of_no_update _ ha hu, boundaryRule_success, if_pos hl, ← endActive_eq_withActiveEnd _ _ _ _ rfl,
    endActive_of_no_report (c := advance c n) _ _ _ _ rfl (by rw [advance_queue]; exact hn)]
  simp only [advance_queue, advance_record, advance_ring, advance_index] at hend ⊢
  simp only [show ((advanced c n { s with segment := none }).queue c.queue).abortPending = false from hp]
  exact congrArg select hend

/-! ## The statements -/

/-- Settles O43: the failure taken first settles the segment (`segmentTakes_failure`, `segmentTakes_settling`); with nothing pending on
the queue the boundary is `segmentBoundary_failed`. -/
theorem failedRequestEndsTheRecord : Obligations.FailedRequestEndsTheRecord := by
  intro tg r k ad n tm kind c g q s hr ht ha hg hq x left outcome
  have htake (f : SegFailure) (hf : (g.failure = none ∧ (r = .error ∨ r = .timeout) ∧ f = ⟨r == .timeout, q.operand, q.engine⟩)
      ∨ (g.phase = .settling ∧ g.failure = some f)) :
      segmentTakes c g k (takenAs kind n r) = settle f (resolveRequest g k none) := by
    rcases hf with ⟨hnone, hr, rfl⟩ | ⟨hp, hf⟩
    · have hsame : takenAs kind n r = r := by rcases hr with rfl | rfl <;> simp
      rw [hsame, segmentTakes_failure k (g.not_settles_of_failure hnone) hr, failureOf_eq _ hq]
    · exact segmentTakes_settling _ hp hf
  have hclosed (f : SegFailure) (hf : (g.failure = none ∧ (r = .error ∨ r = .timeout) ∧ f = ⟨r == .timeout, q.operand, q.engine⟩)
      ∨ (g.phase = .settling ∧ g.failure = some f)) (hnone : ∀ p ∈ left, p.progress ≠ .issued) :
      ∃ t, exec (answerOf tg r) s = .next t ∧ EndsResolved tg r (segmentBoundary (outcome f) x) t :=
    exec_answerOf_boundary hr ht ha hg ((htake f hf).trans (settle_of_closed hnone))
  refine ⟨fun f hf => ?_, ?_⟩
  · have hf' := hf.imp_right fun h => And.intro h.1 h.2.1
    refine ⟨fun hopen => ?_, hclosed f hf'⟩
    exact exec_answerOf_continues hr ht ha hg ((htake f hf').trans (settle_of_open hopen))
  · intro hnone hfail hres hu he hd hp hn hring d ended base
    obtain ⟨t, hexec, hends⟩ := hclosed _ (.inl ⟨hfail, hres, rfl⟩) hnone
    have he' : x.engine ≠ .stopping := by rcases hres with rfl | rfl <;> simp [x, handed, he]
    have hbound : segmentBoundary (outcome ⟨r == .timeout, q.operand, q.engine⟩) x = select base := by
      rcases hres with rfl | rfl
      · exact segmentBoundary_failed (s := x) _ ha hu he' hd hp hn hring
      · exact segmentBoundary_failed (s := x) _ ha hu he' hd hp hn hring
    exact ⟨t, hexec, hbound ▸ hends⟩

/-- Settles O44: R14's table by `segmentTakes_ack`, and the end of the last segment by `segmentBoundary_last`. -/
theorem lastAcknowledgmentEndsTheRecord : Obligations.LastAcknowledgmentEndsTheRecord := by
  intro tg k ad n tm c g s hr ht ha hg hp left
  have htake := segmentTakes_ack (c := c) k (g.not_settles_of_phase (by simp [hp]))
  have hlast (hall : ∀ q ∈ left, q.progress = .resolved) :
      ∃ t, exec (answerOf tg .ack) s = .next t ∧ EndsResolved tg .ack (segmentBoundary (.success g.length) s) t := by
    refine exec_answerOf_boundary hr ht ha hg ?_
    rw [takenAs_ack_write, htake, if_neg (by simp [(allResolved_iff (resolveRequest g k none)).mpr hall])]
  refine ⟨fun hopen => ?_, hlast, ?_⟩
  · refine exec_answerOf_continues hr ht ha hg ?_
    rw [takenAs_ack_write, htake, if_pos ((allResolved_eq_false_iff (resolveRequest g k none)).mpr hopen)]
    rfl
  · intro hall hdone hu habort hn hring h0 d ended notice base
    obtain ⟨t, hexec, hends⟩ := hlast hall
    refine ⟨t, hexec, ?_⟩
    rwa [segmentBoundary_last g.length ha hu hdone habort hn hring h0] at hends

end Sys2Proof.Machine
end

section
/-! PROOF. The layout of a work record, the start checks, segments and their requests (R1 to R13, R19, R173): the statement
RecordsSegmentsAndRequestsKeepTheirBounds. -/

namespace Sys2Proof.Machine

/-! ## Little-endian fields (R172) -/

theorem slice_succ (b : List Byte) (off n : Nat) :
    slice b off (n + 1) = (b[off]?).toList ++ slice b (off + 1) n := by
  rcases Nat.lt_or_ge off b.length with h | h
  · rw [slice, slice, List.drop_eq_getElem_cons h, List.take_succ_cons, List.getElem?_eq_getElem h]
    rfl
  · simp [slice, List.drop_eq_nil_of_le h, List.drop_eq_nil_of_le (Nat.le_succ_of_le h), h]

@[simp] theorem field_zero (b : List Byte) (off : Nat) : field b off 0 = 0 := by simp [field, slice, leNat]

/-- A field's lowest byte is the one at its offset. -/
theorem field_succ (b : List Byte) (off n : Nat) : field b off (n + 1) = (b.getD off 0).toNat + 256 * field b (off + 1) n := by
  rw [field, slice_succ]
  rcases Nat.lt_or_ge off b.length with h | h
  · simp [h, leNat, field]
  · simp [h, field, slice, List.drop_eq_nil_of_le (Nat.le_succ_of_le h), leNat]

theorem field_lt (b : List Byte) (off n : Nat) : field b off n < 256 ^ n := by
  induction n generalizing off with
  | zero => simp
  | succ n ih =>
    have hb := (b.getD off 0).isLt
    have := ih (off + 1)
    rw [field_succ, Nat.pow_succ]
    omega

/-- A stride is its field in two's complement (R172). -/
theorem signed32_eq (b : List Byte) (off : Nat) :
    signed32 b off = if field b off 4 < 2 ^ 31 then (field b off 4 : Int) else (field b off 4 : Int) - 2 ^ 32 := by
  have := field_lt b off 4
  rw [signed32, BitVec.toInt_eq_toNat_cond, BitVec.toNat_ofNat]
  split <;> split <;> omega

/-! ## Start checks (R2, R5 to R8) -/

theorem allZero_iff (l : List Byte) : allZero l = true ↔ ∀ v ∈ l, v = 0 := by simp [allZero]

theorem usesSource_iff (r : WorkRecord) : r.usesSource = true ↔ r.type = 1 ∨ r.type = 3 := by
  simp [WorkRecord.usesSource, typeCopy, typeCompare]

theorem swap_eq (r : WorkRecord) : r.swap = (r.flags / 4 % 2 == 1) := rfl

theorem flagsAllowed_iff (r : WorkRecord) : flagsAllowed r = true ↔ ¬ (r.flags / 4 % 2 = 1 ∧ ¬ r.type = 1) := by
  simp only [flagsAllowed, swap_eq, typeCopy, Bool.or_eq_true, Bool.not_eq_true', beq_iff_eq, beq_eq_false_iff_ne]
  tauto

/-- The first and the last row of an operand lie within 0 to 2^48 − 1 (R6). -/
theorem operandInRange_iff (r : WorkRecord) (address : Nat) (stride : Int) :
    operandInRange r address stride = true ↔
      0 ≤ (address : Int) ∧ (address : Int) + r.rowLength ≤ 2 ^ 48
      ∧ 0 ≤ (address : Int) + (r.rows - 1 : Nat) * stride
      ∧ (address : Int) + (r.rows - 1 : Nat) * stride + r.rowLength ≤ 2 ^ 48 := by
  show ((decide (0 ≤ rowStart address stride 0) && decide (rowStart address stride 0 + r.rowLength ≤ Config.addressLimit))
    && (decide (0 ≤ rowStart address stride (r.rows - 1))
        && decide (rowStart address stride (r.rows - 1) + r.rowLength ≤ Config.addressLimit))) = true ↔ _
  rw [Bool.and_eq_true, Bool.and_eq_true, Bool.and_eq_true, decide_eq_true_iff, decide_eq_true_iff, decide_eq_true_iff,
    decide_eq_true_iff, and_assoc]
  simp only [rowStart, Nat.cast_zero, zero_mul, add_zero]
  rfl

theorem rangeOk_iff (r : WorkRecord) :
    rangeOk r = true ↔
      (r.type = 1 ∨ r.type = 3 → operandInRange r r.source r.sourceStride = true) ∧ operandInRange r r.dest r.destStride = true := by
  rw [← usesSource_iff]
  cases hs : r.usesSource <;> simp [rangeOk, hs]

/-- Check 2 for a record whose type is assigned (R2). -/
theorem reservedFieldsOk_iff {r : WorkRecord} (ht : r.type = 1 ∨ r.type = 2 ∨ r.type = 3 ∨ r.type = 4) :
    reservedFieldsOk r = true ↔
      (∀ v ∈ r.reserved, v = 0) ∧ r.flags < 8
      ∧ (r.type = 1 ∨ r.type = 3 → ∀ v ∈ r.pattern, v = 0)
      ∧ (r.type = 2 → r.source = 0 ∧ r.sourceStride = 0)
      ∧ (r.type = 4 → r.width = 0 ∧ r.source = 0 ∧ r.sourceStride = 0 ∧ r.dest = 0 ∧ r.destStride = 0 ∧ r.rowLength = 0
          ∧ r.rows = 0 ∧ ∀ v ∈ r.pattern, v = 0) := by
  have hflags : r.flags / 8 = 0 ↔ r.flags < 8 := by omega
  rcases ht with h | h | h | h <;>
    simp [reservedFieldsOk, allZero_iff, hflags, h, typeCopy, typeFill, typeCompare, and_assoc]

/-- Check 7 finds nothing (R7). -/
theorem alignFailure_eq_none_iff (r : WorkRecord) :
    alignFailure r = none ↔
      (r.type = 1 ∨ r.type = 3 → r.source % r.width = 0) ∧ r.dest % r.width = 0 ∧ r.rowLength % r.width = 0
      ∧ (1 < r.rows → (r.type = 1 ∨ r.type = 3 → r.sourceStride % r.width = 0) ∧ r.destStride % r.width = 0) := by
  rw [← usesSource_iff]
  unfold alignFailure
  split_ifs <;> simp_all
  tauto

/-- What the start checks let pass (R5). -/
theorem startCheck_goes {r : WorkRecord} (h : startCheck r = .goes) :
    (r.type = 1 ∨ r.type = 2 ∨ r.type = 3) ∧ (r.width = 1 ∨ r.width = 2 ∨ r.width = 4 ∨ r.width = 8)
    ∧ 0 < r.rowLength ∧ 0 < r.rows ∧ flagsAllowed r = true ∧ rangeOk r = true ∧ alignFailure r = none := by
  unfold startCheck at h
  split_ifs at h with htype hres hmark hflag hwidth hlen hflags hrange
  split at h
  · cases h
  · next halign =>
    simp only [typeCopy, typeFill, typeCompare, typeMark] at htype hmark
    simp only [Bool.not_eq_true', Bool.not_eq_false] at hflags hrange
    exact ⟨by tauto, by tauto, by omega, by omega, hflags, hrange, halign⟩

/-- The start checks, with what each of them finds spelled out (R2, R5 to R8). -/
theorem startCheck_eq (r : WorkRecord) :
    let copy : Prop := r.type = 1
    let fill : Prop := r.type = 2
    let compare : Prop := r.type = 3
    let mark : Prop := r.type = 4
    startCheck r =
      if ¬ (copy ∨ fill ∨ compare ∨ mark) then .fails .malformed .badType
      else if reservedFieldsOk r = false then .fails .malformed .badReserved
      else if mark then (if flagsAllowed r = true then .mark else .fails .malformed .badFlags)
      else if ¬ (r.width = 1 ∨ r.width = 2 ∨ r.width = 4 ∨ r.width = 8) then .fails .malformed .badWidth
      else if r.rowLength = 0 ∨ r.rows = 0 then .fails .malformed .badLength
      else if flagsAllowed r = false then .fails .malformed .badFlags
      else if rangeOk r = false then .fails .malformed .badRange
      else if r.usesSource = true ∧ r.source % r.width ≠ 0 then .fails .align .alignSource
      else if r.dest % r.width ≠ 0 then .fails .align .alignDest
      else if r.rowLength % r.width ≠ 0 then .fails .align .alignLength
      else if 1 < r.rows ∧ (r.usesSource = true ∧ r.sourceStride % r.width ≠ 0 ∨ r.destStride % r.width ≠ 0) then
        .fails .align .alignStride
      else .goes := by
  intro copy fill compare mark
  have halign : (match alignFailure r with | some sub => StartVerdict.fails .align sub | none => .goes) =
      if r.usesSource = true ∧ r.source % r.width ≠ 0 then .fails .align .alignSource
      else if r.dest % r.width ≠ 0 then .fails .align .alignDest
      else if r.rowLength % r.width ≠ 0 then .fails .align .alignLength
      else if 1 < r.rows ∧ (r.usesSource = true ∧ r.sourceStride % r.width ≠ 0 ∨ r.destStride % r.width ≠ 0) then
        .fails .align .alignStride
      else .goes := by
    unfold alignFailure
    split_ifs <;> simp_all
  rw [← halign]
  simp only [startCheck, Bool.not_eq_true']
  rfl

/-! ## Rows (R1, R6, R7) -/

/-- A row between the first and the last lies in the range that both lie in. -/
theorem row_in_range {a n st limit : Int} {last row : Nat} (h0 : 0 ≤ a) (h1 : a + n ≤ limit) (h2 : 0 ≤ a + last * st)
    (h3 : a + last * st + n ≤ limit) (hr : row ≤ last) : 0 ≤ a + row * st ∧ a + row * st + n ≤ limit := by
  have hle : (row : Int) ≤ last := by exact_mod_cast hr
  rcases Int.le_total 0 st with hs | hs
  · have := Int.mul_le_mul_of_nonneg_right hle hs
    have := Int.mul_nonneg (Int.natCast_nonneg row) hs
    omega
  · have := Int.mul_le_mul_of_nonpos_right hle hs
    have := Int.mul_nonpos_of_nonneg_of_nonpos (Int.natCast_nonneg row) hs
    omega

/-- A row of an operand whose address and, with more than one row, stride are multiples of the width. -/
theorem row_aligned {address w row rows : Nat} {st : Int} (ha : address % w = 0) (hs : 1 < rows → st % w = 0) (hr : row < rows) :
    ((address : Int) + row * st) % w = 0 := by
  have hdvd : (w : Int) ∣ address := by exact_mod_cast Nat.dvd_of_mod_eq_zero ha
  apply Int.emod_eq_zero_of_dvd
  by_cases h1 : 1 < rows
  · exact Int.dvd_add hdvd (Int.dvd_mul_of_dvd_right (Int.dvd_of_emod_eq_zero (hs h1)))
  · have : row = 0 := by omega
    simpa [this] using hdvd

/-- Every row of an operand that passed check 6 lies within 0 to 2^48 − 1. -/
theorem operand_row_in_range {r : WorkRecord} {address row : Nat} {st : Int} (h : operandInRange r address st = true)
    (hr : row < r.rows) : 0 ≤ (address : Int) + row * st ∧ (address : Int) + row * st + r.rowLength ≤ 2 ^ 48 := by
  obtain ⟨h0, h1, h2, h3⟩ := (operandInRange_iff r address st).mp h
  exact row_in_range h0 h1 h2 h3 (by omega)

/-! ## Segments (R1, R10, R19) -/

/-- Where a segment begins in an operand, with no wrap (R1, R10). -/
theorem segmentStart_eq {c : Context} {address : Nat} {st : Int} (h : operandInRange c.record address st = true)
    (hr : c.row < c.record.rows) : (segmentStart address st c : Int) = address + c.row * st + c.offset := by
  have := (operand_row_in_range h hr).1
  rw [segmentStart, rowStart]
  omega

theorem segmentLength_of_usesSource {c : Context} (h : c.record.usesSource = true) :
    segmentLength c =
      min (min (min 256 (c.record.rowLength - c.offset)) (1024 - segmentStart c.record.dest c.record.destStride c % 1024))
        (1024 - segmentStart c.record.source c.record.sourceStride c % 1024) := by
  simp [segmentLength, h, toBoundary]

theorem segmentLength_of_not_usesSource {c : Context} (h : c.record.usesSource = false) :
    segmentLength c =
      min (min 256 (c.record.rowLength - c.offset)) (1024 - segmentStart c.record.dest c.record.destStride c % 1024) := by
  simp [segmentLength, h, toBoundary]

/-- A segment of a context in its data is not empty, ends in its row and crosses no 1 KiB boundary (R10). -/
theorem segmentLength_bounds {c : Context} (ho : c.offset < c.record.rowLength) :
    0 < segmentLength c ∧ segmentLength c ≤ 256 ∧ c.offset + segmentLength c ≤ c.record.rowLength
    ∧ segmentStart c.record.dest c.record.destStride c % 1024 + segmentLength c ≤ 1024
    ∧ (c.record.usesSource = true → segmentStart c.record.source c.record.sourceStride c % 1024 + segmentLength c ≤ 1024) := by
  cases hs : c.record.usesSource with
  | true =>
    rw [segmentLength_of_usesSource hs]
    omega
  | false =>
    rw [segmentLength_of_not_usesSource hs]
    simp only [Bool.false_eq_true, false_implies, and_true]
    omega

theorem patternBytes_getElem? {r : WorkRecord} {n i : Nat} (offset : Nat) (hw : 0 < r.width) (hp : r.width ≤ r.pattern.length)
    (hi : i < n) : (patternBytes r offset n)[i]? = r.pattern[(offset + i) % r.width]? := by
  have := Nat.mod_lt (offset + i) hw
  have hlt : (offset + i) % r.width < r.pattern.length := by omega
  simp [patternBytes, hi, hlt]

/-- Byte `j` of element `k` comes from byte `w − 1 − j` of it (R3). -/
theorem swapElements_getElem? {w k j : Nat} {data : List Byte} (hk : k < data.length / w)
    (hj : j < w) : (swapElements w data)[k * w + j]? = data[k * w + (w - 1 - j)]? := by
  have hlen : (k + 1) * w ≤ data.length := (Nat.le_div_iff_mul_le (by omega)).mp hk
  rw [Nat.add_mul, Nat.one_mul] at hlen
  have hdiv : (k * w + j) / w = k := by
    rw [Nat.mul_comm, Nat.mul_add_div (by omega), Nat.div_eq_of_lt hj, Nat.add_zero]
  have hmod : (k * w + j) % w = j := by
    rw [Nat.mul_comm, Nat.mul_add_mod, Nat.mod_eq_of_lt hj]
  have hi : k * w + j < data.length := by omega
  have hi' : k * w + (w - 1 - j) < data.length := by omega
  simp [swapElements, hi, hi', hdiv, hmod]

/-! ## The requests of a range (R12, R13) -/

/-- Where the part of a range before the end of its `m`th block ends, as an offset in the range. -/
def partEnd (system length m : Nat) : Nat := min (system + length) ((system / 64 + m) * 64) - system

/-- Part `k` of a range: its bytes in the `k`th block it meets, as offset and length. -/
def blockPart (system length k : Nat) : Nat × Nat :=
  (max system ((system / 64 + k) * 64) - system,
    min (system + length) ((system / 64 + k + 1) * 64) - max system ((system / 64 + k) * 64))

/-- The number of blocks that a range of at least one byte meets. -/
def blockCount (system length : Nat) : Nat := (system + length - 1) / 64 - system / 64 + 1

theorem splitAt64_eq {system length : Nat} (h : length ≠ 0) :
    splitAt64 system length = (List.range (blockCount system length)).map (blockPart system length) := by
  rw [splitAt64, if_neg h]
  rfl

section
variable {system length k : Nat}

/-- The parts follow one another: part `k` begins where the one before it ends. -/
theorem blockPart_fst (hk : k < blockCount system length) (hl : length ≠ 0) :
    (blockPart system length k).1 = partEnd system length k := by
  simp only [blockPart, partEnd, blockCount] at hk hl ⊢
  omega

theorem blockPart_snd : partEnd system length k + (blockPart system length k).2 = partEnd system length (k + 1) := by
  simp only [blockPart, partEnd]
  omega

theorem partEnd_zero : partEnd system length 0 = 0 := by
  simp only [partEnd]
  omega

theorem partEnd_blockCount : partEnd system length (blockCount system length) = length := by
  simp only [partEnd, blockCount]
  omega

end

/-- Whatever the parts of a range select one after another adds up to what the whole range selects. -/
theorem splitAt64_flatMap {α : Type} (f : Nat → Nat → List α) (hf0 : ∀ off, f off 0 = [])
    (hf : ∀ off m n, f off (m + n) = f off m ++ f (off + m) n) (system length : Nat) :
    (splitAt64 system length).flatMap (fun p => f p.1 p.2) = f 0 length := by
  by_cases hl : length = 0
  · simp [splitAt64, hl, hf0]
  · have hpart (m : Nat) (hm : m ≤ blockCount system length) :
        ((List.range m).map (blockPart system length)).flatMap (fun p => f p.1 p.2) = f 0 (partEnd system length m) := by
      induction m with
      | zero => simp [partEnd_zero, hf0]
      | succ m ih =>
        rw [List.range_succ, List.map_append, List.flatMap_append, ih (by omega), ← blockPart_snd, hf]
        simp [blockPart_fst (show m < blockCount system length by omega) hl]
    rw [splitAt64_eq hl, hpart _ (Nat.le_refl _), partEnd_blockCount]

/-- Each part is not empty and lies in one aligned block of 64 bytes. -/
theorem splitAt64_mem {system length : Nat} {p : Nat × Nat} (hp : p ∈ splitAt64 system length) :
    0 < p.2 ∧ (system + p.1) % 64 + p.2 ≤ 64 ∧ p.1 + p.2 ≤ length := by
  by_cases hl : length = 0
  · simp [splitAt64, hl] at hp
  · rw [splitAt64_eq hl, List.mem_map] at hp
    obtain ⟨k, hk, rfl⟩ := hp
    rw [List.mem_range] at hk
    simp only [blockPart, blockCount] at *
    omega

theorem splitAt64_pairwise (system length : Nat) :
    (splitAt64 system length).Pairwise fun p q => (system + p.1) / 64 < (system + q.1) / 64 := by
  by_cases hl : length = 0
  · simp [splitAt64, hl]
  · rw [splitAt64_eq hl, List.pairwise_map]
    refine List.Pairwise.imp_of_mem ?_ List.pairwise_lt_range
    intro j k hj hk hjk
    rw [List.mem_range] at hj hk
    simp only [blockPart, blockCount] at *
    omega

theorem splitAt64_length_le {system length : Nat} (h : length ≤ 256) : (splitAt64 system length).length ≤ 5 := by
  by_cases hl : length = 0
  · simp [splitAt64, hl]
  · rw [splitAt64_eq hl, List.length_map, List.length_range, blockCount]
    omega

theorem splitAt64_length_256 (system : Nat) : (splitAt64 system 256).length = if system % 64 = 0 then 4 else 5 := by
  rw [splitAt64_eq (by decide), List.length_map, List.length_range, blockCount]
  split <;> omega

/-! ## The statement -/

/-- A stride, the pattern, the reserved bytes and the flags of a record, by their offsets (R173). -/
theorem workRecord_fields (b : List Byte) :
    let r := workRecord b
    let signed (v : Nat) : Int := if v < 2 ^ 31 then v else (v : Int) - 2 ^ 32
    r.sourceStride = signed (field b 32 4) ∧ r.destStride = signed (field b 36 4)
    ∧ (∀ j, j < 8 → r.pattern[j]? = b[40 + j]?)
    ∧ r.suppress = (r.flags % 2 == 1) ∧ r.notifyNow = (r.flags / 2 % 2 == 1) ∧ r.swap = (r.flags / 4 % 2 == 1) := by
  refine ⟨signed32_eq b 32, signed32_eq b 36, fun j hj => ?_, ?_, rfl, rfl⟩
  · simp [workRecord, slice, List.getElem?_take_of_lt hj]
  · simp [WorkRecord.suppress, bitOf]

/-- The operands that a record passing check 6 uses (R6). -/
theorem operandInRange_of_rangeOk {r : WorkRecord} (h : rangeOk r = true) (ht : r.type = 1 ∨ r.type = 2 ∨ r.type = 3) :
    operandInRange r r.dest r.destStride = true ∧ (r.type ≠ 2 → operandInRange r r.source r.sourceStride = true) := by
  obtain ⟨hsource, hdest⟩ := (rangeOk_iff r).mp h
  exact ⟨hdest, fun hne => hsource (by tauto)⟩

/-- Every row of an operand that passed the start checks lies in range and is aligned to its width (R6, R7). -/
theorem startCheck_goes_rows {r : WorkRecord} (h : startCheck r = .goes) {row : Nat} (hr : row < r.rows) :
    let inside (address : Nat) (stride : Int) : Prop :=
      0 ≤ (address : Int) + row * stride ∧ (address : Int) + row * stride + r.rowLength ≤ 2 ^ 48
        ∧ ((address : Int) + row * stride) % r.width = 0
    inside r.dest r.destStride ∧ (r.type ≠ 2 → inside r.source r.sourceStride) := by
  obtain ⟨ht, -, -, -, -, hrange, halign⟩ := startCheck_goes h
  obtain ⟨hdest, hsource⟩ := operandInRange_of_rangeOk hrange ht
  obtain ⟨hsrc, hdst, -, hstride⟩ := (alignFailure_eq_none_iff r).mp halign
  refine ⟨?_, fun hne => ?_⟩
  · obtain ⟨h0, h1⟩ := operand_row_in_range hdest hr
    exact ⟨h0, h1, row_aligned hdst (fun hn => (hstride hn).2) hr⟩
  · have huses : r.type = 1 ∨ r.type = 3 := by tauto
    obtain ⟨h0, h1⟩ := operand_row_in_range (hsource hne) hr
    exact ⟨h0, h1, row_aligned (hsrc huses) (fun hn => (hstride hn).1 huses) hr⟩

/-- Check 2 of a record whose type is assigned, as what makes it fail. -/
theorem reservedFieldsOk_eq_false_iff {r : WorkRecord} (ht : r.type = 1 ∨ r.type = 2 ∨ r.type = 3 ∨ r.type = 4) :
    reservedFieldsOk r = false ↔
      (¬ ∀ v ∈ r.reserved, v = 0) ∨ 8 ≤ r.flags ∨ (r.type = 1 ∨ r.type = 3) ∧ (¬ ∀ v ∈ r.pattern, v = 0)
      ∨ r.type = 2 ∧ ¬ (r.source = 0 ∧ r.sourceStride = 0)
      ∨ r.type = 4 ∧ ¬ (r.width = 0 ∧ r.source = 0 ∧ r.sourceStride = 0 ∧ r.dest = 0 ∧ r.destStride = 0 ∧ r.rowLength = 0
                          ∧ r.rows = 0 ∧ ∀ v ∈ r.pattern, v = 0) := by
  rw [Bool.eq_false_iff, Ne, reservedFieldsOk_iff ht, ← Nat.not_le]
  simp only [not_and_or, Classical.not_imp, not_not]

/-- The segment of a context in its data begins where R10 says (R1, R10). -/
theorem segmentStart_of_positionOk {c : Context} (h : PositionOk c) :
    (segmentStart c.record.dest c.record.destStride c : Int) = c.record.dest + c.row * c.record.destStride + c.offset
    ∧ (c.record.type ≠ 2 →
        (segmentStart c.record.source c.record.sourceStride c : Int) = c.record.source + c.row * c.record.sourceStride + c.offset) := by
  obtain ⟨hgoes, hrow, -, -⟩ := h
  obtain ⟨ht, -, -, -, -, hrange, -⟩ := startCheck_goes hgoes
  obtain ⟨hdest, hsource⟩ := operandInRange_of_rangeOk hrange ht
  exact ⟨segmentStart_eq hdest hrow, fun hne => segmentStart_eq (hsource hne) hrow⟩

/-- The data of the parts of a range are the range's data in order (R12, R13). -/
theorem rangeRequests_data (o : Operand) (kind : ReqKind) {r : OperandRange} {data : List Byte} (h : data.length = r.length) :
    (rangeRequests o kind r data).flatMap (fun q => q.data) = data
    ∧ ∀ q ∈ rangeRequests o kind r data, q.data.length = q.length := by
  constructor
  · rw [rangeRequests, List.flatMap_map]
    rw [splitAt64_flatMap (fun off n => slice data off n) (fun off => by simp [slice])
      (fun off m n => by simp [slice, List.take_add]), slice, List.drop_zero, ← h, List.take_length]
  · intro q hq
    obtain ⟨p, hp, rfl⟩ := List.mem_map.mp hq
    have := (splitAt64_mem hp).2.2
    simp only [slice, List.length_take, List.length_drop]
    omega

/-- The requests of a range cover its addresses in ascending order (R12, R13). -/
theorem splitAt64_range' (a system length : Nat) :
    (splitAt64 system length).flatMap (fun p => List.range' (a + p.1) p.2) = List.range' a length :=
  splitAt64_flatMap (fun off n => List.range' (a + off) n) (fun _ => rfl)
    (fun off m n => by rw [← List.range'_append_1, Nat.add_assoc]) system length

/-- Settles O53: each part is a lemma above. -/
theorem recordsSegmentsAndRequestsKeepTheirBounds : Obligations.RecordsSegmentsAndRequestsKeepTheirBounds := by
  refine ⟨?_, ?_, ?_, ?_, ?_, ?_, ?_, ?_, ?_, ?_, ?_⟩
  · exact fun b off n => ⟨field_zero b off, field_succ b off n⟩
  · intro b r signed
    obtain ⟨hsource, hdest, hpattern, hflags⟩ := workRecord_fields b
    exact ⟨rfl, rfl, rfl, rfl, rfl, rfl, rfl, rfl, hsource, hdest, fun _ => ⟨hpattern, rfl⟩, hflags⟩
  · intro c r toEdge own
    refine ⟨fun h => segmentLength_of_usesSource ((usesSource_iff r).mpr h), fun h => segmentLength_of_not_usesSource ?_⟩
    exact Bool.eq_false_iff.mpr fun hs => by have := (usesSource_iff r).mp hs; omega
  · exact fun c h => segmentStart_of_positionOk h
  · intro r copy fill compare mark zero reserved swapped inside outside
    rw [startCheck_eq]
    have hflags : flagsAllowed r = false ↔ swapped ∧ ¬ copy := by rw [Bool.eq_false_iff, Ne, flagsAllowed_iff, not_not]
    have hrange : rangeOk r = false ↔ outside := by
      rw [Bool.eq_false_iff, Ne, rangeOk_iff, operandInRange_iff, operandInRange_iff]
      show ¬ ((copy ∨ compare → inside r.source r.sourceStride) ∧ inside r.dest r.destStride) ↔ _
      tauto
    refine ite_congr rfl (fun _ => rfl) fun htype => ?_
    have htype : r.type = 1 ∨ r.type = 2 ∨ r.type = 3 ∨ r.type = 4 := not_not.mp htype
    refine ite_congr (propext (reservedFieldsOk_eq_false_iff htype)) (fun _ => rfl) fun _ => ?_
    refine ite_congr rfl (fun hmark => ?_) fun _ => ?_
    · have hcopy : ¬ copy := fun hc => by simp only [copy, mark] at hc hmark; omega
      by_cases hs : swapped
      · rw [if_neg (by simp [hflags.mpr ⟨hs, hcopy⟩]), if_pos hs]
      · rw [if_pos ((flagsAllowed_iff r).mpr fun h => hs h.1), if_neg hs]
    · refine ite_congr rfl (fun _ => rfl) fun _ => ite_congr rfl (fun _ => rfl) fun _ => ?_
      refine ite_congr (propext hflags) (fun _ => rfl) fun _ => ite_congr (propext hrange) (fun _ => rfl) fun _ => ?_
      refine ite_congr (by rw [usesSource_iff]) (fun _ => rfl) fun _ => ite_congr rfl (fun _ => rfl) fun _ => ?_
      exact ite_congr rfl (fun _ => rfl) fun _ => ite_congr (by rw [usesSource_iff]) (fun _ => rfl) fun _ => rfl
  · intro r h
    obtain ⟨ht, hw, hl, hr, hflags, -, -⟩ := startCheck_goes h
    refine ⟨ht, hw, hl, hr, fun hs => ?_, fun row hrow => startCheck_goes_rows h hrow⟩
    rw [swap_eq, beq_iff_eq] at hs
    have := (flagsAllowed_iff r).mp hflags
    tauto
  · intro c h
    exact segmentLength_bounds h.2.2.1
  · intro c src dst begun
    refine ⟨rfl, fun h => ?_, fun h => ?_⟩
    · simp [newSegment, h, typeCompare, begun]
    · simp [newSegment, h, typeCompare, begun]
  · intro r offset n i hw hp hi
    exact ⟨by simp [patternBytes], patternBytes_getElem? offset hw hp hi⟩
  · intro w k j data hw hd hk hj
    exact ⟨by simp [swapElements], swapElements_getElem? hk hj⟩
  · intro o kind r data l
    have hcount : l.length = (splitAt64 r.system r.length).length := List.length_map ..
    refine ⟨rangeRequests_data o kind, ?_, ?_, ?_, ?_, fun h => hcount ▸ splitAt64_length_le h, fun h => ?_⟩
    · rw [← splitAt64_range' r.system r.system r.length]
      exact List.flatMap_map ..
    · rw [← splitAt64_range' r.engine r.system r.length]
      exact List.flatMap_map ..
    · intro q hq
      obtain ⟨p, hp, rfl⟩ := List.mem_map.mp hq
      obtain ⟨hpos, hblock, -⟩ := splitAt64_mem hp
      exact ⟨hpos, hblock, rfl, rfl, rfl⟩
    · exact List.pairwise_map.mpr (splitAt64_pairwise r.system r.length)
    · rw [hcount, h, splitAt64_length_256]

end Sys2Proof.Machine
end

section
/-! PROOF. The laws of counters, settings, work rings and positions, as a relation `Keeps s t` between the state before and the state
after an operation; and that the shared operations and the scheduler's keep them. -/

namespace Sys2Proof.Machine

/-! ## The relation -/

/-- What a step must not break, but for the positions. -/
structure KeepsBooks (s t : State) : Prop where
  counters : CounterLaw s → CounterLaw t
  settings : SettingsLaw s → SettingsLaw t
  workRings : WorkRingLaw s → WorkRingLaw t

/-- `t` breaks none of the laws of counters, settings, work rings and positions that `s` meets. -/
structure Keeps (s t : State) : Prop extends KeepsBooks s t where
  positions : PositionLaw s → PositionLaw t

theorem KeepsBooks.refl (s : State) : KeepsBooks s s := ⟨id, id, id⟩
theorem KeepsBooks.trans {s t u : State} (h : KeepsBooks s t) (k : KeepsBooks t u) : KeepsBooks s u :=
  ⟨k.counters ∘ h.counters, k.settings ∘ h.settings, k.workRings ∘ h.workRings⟩

theorem Keeps.refl (s : State) : Keeps s s := ⟨.refl s, id⟩
theorem Keeps.trans {s t u : State} (h : Keeps s t) (k : Keeps t u) : Keeps s u :=
  ⟨h.toKeepsBooks.trans k.toKeepsBooks, k.positions ∘ h.positions⟩

/-- A state that meets all four laws may follow any state. -/
theorem Keeps.of_laws {s t : State} (hc : CounterLaw t) (hs : SettingsLaw t) (hw : WorkRingLaw t) (hp : PositionLaw t) :
    Keeps s t :=
  ⟨⟨fun _ => hc, fun _ => hs, fun _ => hw⟩, fun _ => hp⟩

/-! ## What the laws look at -/

/-- The part of a state that the four laws look at. -/
structure LawPart where
  queues : Vector Queue 8
  ringCounts : CqId → Nat × Nat
  counters : EngineCounters
  requestTimeout : Nat
  stopGrace : Nat
  active : Option Context
  stack : List Context
  segmentLength : Option Nat
  fetchQueue : Option WqId

def State.lawPart (s : State) : LawPart :=
  { queues := s.queues, ringCounts := fun c => ((s.ring c).written, (s.ring c).discarded), counters := s.counters,
    requestTimeout := s.requestTimeout, stopGrace := s.stopGrace, active := s.active, stack := s.stack,
    segmentLength := s.segment.map fun g => g.length, fetchQueue := s.fetch.map fun f => f.queue }

/-- The counters of one descriptor. -/
abbrev QueueCountersOk (d : Queue) : Prop :=
  CounterOk d.endedOk ∧ CounterOk d.endedFault ∧ CounterOk d.endedAborted ∧ CounterOk d.timesSuspended ∧ CounterOk d.discarded

/-- The counters of one completion ring. -/
abbrev RingCountersOk (r : Ring) : Prop := CounterOk r.written ∧ CounterOk r.discarded

/-- The laws are kept by what they do not look at. -/
theorem Keeps.frame {s t : State} (h : t.lawPart = s.lawPart) : Keeps s t := by
  simp only [State.lawPart, LawPart.mk.injEq] at h
  obtain ⟨hq, hr, hc, ht, hg, ha, hst, hseg, hf⟩ := h
  have hqueue (q : WqId) : t.queue q = s.queue q := by simp only [State.queue, hq]
  have hring (c : CqId) : (t.ring c).written = (s.ring c).written ∧ (t.ring c).discarded = (s.ring c).discarded := by
    simpa using congrFun hr c
  refine ⟨⟨fun ⟨h1, h2, h3⟩ => ⟨fun q => hqueue q ▸ h1 q, fun c => ?_, hc ▸ h3⟩, fun h => by rw [SettingsLaw, ht, hg]; exact h,
    fun ⟨h1, h2, h3⟩ => ⟨fun q => hqueue q ▸ h1 q, fun c hm => ?_, fun f hm => ?_⟩⟩, fun ⟨h1, h2⟩ => ⟨fun c hm => ?_, fun g hm => ?_⟩⟩
  · rw [(hring c).1, (hring c).2]
    exact h2 c
  · rw [hqueue]
    exact h2 c (by rwa [contexts, ha, hst] at hm)
  · rw [hqueue]
    have : s.fetch.map (fun f => f.queue) = some f.queue := by rw [← hf, Option.mem_def.mp hm]; rfl
    obtain ⟨f', hf', he⟩ := Option.map_eq_some_iff.mp this
    exact he ▸ h3 f' hf'
  · exact h1 c (by rwa [contexts, ha, hst] at hm)
  · have : s.segment.map (fun g => g.length) = some g.length := by rw [← hseg, Option.mem_def.mp hm]; rfl
    obtain ⟨g', hg', he⟩ := Option.map_eq_some_iff.mp this
    rw [ha]
    exact he ▸ h2 g' hg'

/-- An operation that keeps the laws keeps them after a change of what they do not look at. -/
theorem Keeps.after_frame {s t u : State} (k : Keeps t u) (h : t.lawPart = s.lawPart) : Keeps s u := (Keeps.frame h).trans k

/-- The positions are kept by what leaves contexts and segment alone. -/
theorem PositionLaw.of_moverPart {s t : State} (h : t.moverPart = s.moverPart) (hp : PositionLaw s) : PositionLaw t := by
  simp only [State.moverPart, Prod.mk.injEq] at h
  obtain ⟨ha, hst, hseg⟩ := h
  simpa only [PositionLaw, contexts, ha, hst, hseg] using hp

/-! ## Single updates -/

/-- A descriptor with the ring of another, in a state in which that ring may stand. -/
theorem queueShape_of_same {d e : Queue} (h : QueueShape d) (hs : e.ringSize = d.ringSize) (hh : e.head = d.head)
    (ht : e.tail = d.tail) (hstate : e.state = d.state ∨ e.state = .disabled ∨ d.ringSize ≠ 0) : QueueShape e := by
  rw [QueueShape, hs, hh, ht]
  rcases h with ⟨h1, h2, h3, h4⟩ | h
  · refine .inl ⟨h1, ?_, h3, h4⟩
    rcases hstate with h | h | h
    · exact h.trans h2
    · exact h
    · exact absurd h1 h
  · exact .inr h

/-- A queue outside DISABLED is configured (R51). -/
theorem ringSize_ne_zero_of_state {d : Queue} (h : QueueShape d) (hs : d.state ≠ .disabled) : d.ringSize ≠ 0 := by
  rcases h with h | h
  · exact absurd h.2.1 hs
  · omega

/-- One descriptor is replaced; its shape may rest on the work-ring law of an earlier state. -/
theorem KeepsBooks.setQueue {s₀ s : State} {q : WqId} {d : Queue} (h : KeepsBooks s₀ s)
    (hc : QueueCountersOk (s.queue q) → QueueCountersOk d)
    (hw : WorkRingLaw s₀ → WorkRingLaw s → QueueShape d ∧ ((s.queue q).ringSize ≠ 0 → d.ringSize ≠ 0)) :
    KeepsBooks s₀ (s.setQueue q d) := by
  have hsize (hl : WorkRingLaw s₀) (j : WqId) (hj : (s.queue j).ringSize ≠ 0) : ((s.setQueue q d).queue j).ringSize ≠ 0 := by
    rw [State.setQueue_queue]
    split
    · next e => exact (hw hl (h.workRings hl)).2 (e ▸ hj)
    · exact hj
  refine ⟨fun hl => ?_, fun hl => h.settings hl, fun hl => ?_⟩
  · obtain ⟨h1, h2, h3⟩ := h.counters hl
    refine ⟨fun j => ?_, h2, h3⟩
    rw [State.setQueue_queue]
    split
    · exact hc (h1 q)
    · exact h1 j
  · obtain ⟨h1, h2, h3⟩ := h.workRings hl
    refine ⟨fun j => ?_, fun c hm => hsize hl _ (h2 c hm), fun f hm => hsize hl _ (h3 f hm)⟩
    rw [State.setQueue_queue]
    split
    · exact (hw hl (h.workRings hl)).1
    · exact h1 j

/-- One descriptor is replaced. -/
theorem Keeps.setQueue {s : State} {q : WqId} {d : Queue} (hc : QueueCountersOk (s.queue q) → QueueCountersOk d)
    (hw : WorkRingLaw s → QueueShape d ∧ ((s.queue q).ringSize ≠ 0 → d.ringSize ≠ 0)) : Keeps s (s.setQueue q d) :=
  ⟨(KeepsBooks.refl s).setQueue hc fun h _ => hw h, id⟩

/-- One descriptor is replaced by one with its counters and its ring, in a state in which that ring may stand. -/
theorem Keeps.setQueue_same {s : State} {q : WqId} {d : Queue} (hc : QueueCountersOk (s.queue q) → QueueCountersOk d)
    (hs : d.ringSize = (s.queue q).ringSize) (hh : d.head = (s.queue q).head) (ht : d.tail = (s.queue q).tail)
    (hstate : WorkRingLaw s → d.state = (s.queue q).state ∨ d.state = .disabled ∨ (s.queue q).ringSize ≠ 0) :
    Keeps s (s.setQueue q d) :=
  .setQueue hc fun h => ⟨queueShape_of_same (h.1 q) hs hh ht (hstate h), fun hne => hs ▸ hne⟩

/-- One ring is replaced. -/
theorem Keeps.setRing {s : State} {c : CqId} {r : Ring} (h : RingCountersOk (s.ring c) → RingCountersOk r) :
    Keeps s (s.setRing c r) := by
  refine ⟨⟨fun ⟨h1, h2, h3⟩ => ⟨h1, fun j => ?_, h3⟩, id, id⟩, id⟩
  rw [State.setRing_ring]
  split
  · exact h (h2 c)
  · exact h2 j

/-- The engine's counters are replaced. -/
theorem Keeps.setCounters {s : State} {k : EngineCounters}
    (h : CounterLaw s → CounterLaw { s with counters := k }) : Keeps s { s with counters := k } :=
  ⟨⟨h, id, id⟩, id⟩

/-- The fetch in flight is dropped. -/
theorem Keeps.dropFetch (s : State) : Keeps s { s with fetch := none } :=
  ⟨⟨id, id, fun ⟨h1, h2, _⟩ => ⟨h1, h2, fun _ hf => by cases hf⟩⟩, id⟩

/-- Contexts leave the stack. -/
theorem Keeps.dropStack {s : State} {l : List Context} (h : ∀ c ∈ l, c ∈ s.stack) : Keeps s { s with stack := l } := by
  have hsub (c : Context) (hc : c ∈ contexts { s with stack := l }) : c ∈ contexts s := by
    rcases List.mem_append.mp hc with hc | hc
    · exact List.mem_append_left _ hc
    · exact List.mem_append_right _ (h c hc)
  exact ⟨⟨id, id, fun ⟨h1, h2, h3⟩ => ⟨h1, fun c hc => h2 c (hsub c hc), h3⟩⟩, fun ⟨h1, h2⟩ => ⟨fun c hc => h1 c (hsub c hc), h2⟩⟩

/-- The active context leaves the mover, as the books see it. -/
theorem KeepsBooks.dropActive (s : State) (n : Nat) : KeepsBooks s { s with active := none, currentLevel := n } :=
  ⟨id, id, fun ⟨h1, h2, h3⟩ => ⟨h1, fun c hc => h2 c (List.mem_append_right _ hc), h3⟩⟩

/-- Contexts are replaced by contexts of configured queues, as the books see it. -/
theorem KeepsBooks.setContexts {s₀ s : State} (h : KeepsBooks s₀ s) (a : Option Context) (l : List Context) (n : Nat)
    (o : List WqId) (hc : WorkRingLaw s₀ → WorkRingLaw s → ∀ c ∈ a.toList ++ l, (s.queue c.queue).ringSize ≠ 0) :
    KeepsBooks s₀ { s with active := a, stack := l, currentLevel := n, startOrder := o } :=
  ⟨h.counters, h.settings, fun hl => ⟨(h.workRings hl).1, hc hl (h.workRings hl), (h.workRings hl).2.2⟩⟩

/-! ## The shared operations -/

theorem release_keeps (h : Holder) (s : State) : Keeps s (release h s) := .frame rfl

theorem reserve_keeps (h : Holder) (c : CqId) (s : State) : Keeps s (reserve h c s) := .frame rfl

theorem place_keeps (h : Holder) (c : CqId) (e : Entry) (x n : Bool) (s : State) : Keeps s (place h c e x n s) := by
  rcases place_cases h c e x n s with ⟨_, hp⟩ | ⟨_, _, hp⟩ | ⟨_, _, hp⟩ <;> rw [hp]
  · exact .frame rfl
  · exact (release_keeps h s).trans (.setRing fun hr => ⟨hr.1, bump_le (s.ring c).discarded⟩)
  · exact .frame rfl

theorem emptySlot_keeps (q : WqId) (s : State) : Keeps s (emptySlot q s) := by
  rcases emptySlot_cases q s with ⟨_, h⟩ | ⟨_, h⟩ | ⟨_, _, h⟩ | ⟨_, _, h⟩ <;> rw [h]
  · exact .refl s
  · exact .setQueue_same id rfl rfl rfl fun _ => .inl rfl
  · have hset : Keeps (release .fetch s) ((release .fetch s).setQueue q { s.queue q with slot := .empty }) :=
      .setQueue_same id rfl rfl rfl fun _ => .inl rfl
    exact (release_keeps .fetch s).trans (hset.trans (.dropFetch _))
  · exact .setQueue_same id rfl rfl rfl fun _ => .inl rfl

theorem completeAdmin_keeps (b : List Byte) (st : Status) (sub : Sub) (d : Nat) (s : State) :
    Keeps s (completeAdmin b st sub d s) :=
  (place_keeps ..).trans (.frame rfl)

/-- A queue whose posted records are discarded, DISABLED (R145). -/
theorem finishAbort_keeps (b : List Byte) (q : WqId) (sub : Sub) (s : State) : Keeps s (finishAbort b q sub s) := by
  refine (emptySlot_keeps q s).trans (Keeps.trans (.setQueue ?_ ?_) (completeAdmin_keeps ..))
  · exact fun ⟨h1, h2, h3, h4, _⟩ => ⟨h1, h2, h3, h4, bumpBy_le ..⟩
  · intro h
    refine ⟨?_, id⟩
    rcases h.1 q with ⟨h1, _, h3, h4⟩ | ⟨h1, h2, h3, h4⟩
    · exact .inl ⟨h1, rfl, h4, h4⟩
    · exact .inr ⟨h1, h2, h4, h4⟩

/-- A map is not seen through what it forgets. -/
theorem map_eq_of_forgets {α β : Type} {f : α → α} {p : α → β} (hp : ∀ x, p (f x) = p x) {a b : Option α}
    (h : a.map f = b.map f) : a.map p = b.map p := by
  have hc : p ∘ f = p := funext hp
  have := congrArg (Option.map p) h
  rwa [Option.map_map, Option.map_map, hc] at this

theorem grantAll_keeps (s : State) : Keeps s (grantAll s) := by
  have hi := grantAll_onlyIssues s
  have hf := OnlyIssues.fields hi
  have hseg : (grantAll s).segment.map (fun g => g.length) = s.segment.map fun g => g.length :=
    map_eq_of_forgets (f := Segment.unissued) (fun _ => rfl) (congrArg State.segment hi.1)
  have hfetch : (grantAll s).fetch.map (fun f => f.queue) = s.fetch.map fun f => f.queue :=
    map_eq_of_forgets (f := fun f : Fetch => { f with issued := false }) (fun _ => rfl) (congrArg State.fetch hi.1)
  refine .frame ?_
  simp only [State.lawPart, OnlyIssues.ring hi, hseg, hfetch, OnlyIssues.requestTimeout hi, hf]

/-! ## Ends -/

/-- The counters of a queue whose record ends. -/
theorem endQueue_countersOk {d : Queue} (st : Status) (n : NextState) (h : QueueCountersOk d) :
    QueueCountersOk (endQueue d st n) := by
  obtain ⟨h1, h2, h3, h4, h5⟩ := h
  refine ⟨?_, ?_, ?_, h4, h5⟩ <;> simp only [endQueue] <;> split
  · exact bump_le _
  · exact h1
  · exact bump_le _
  · exact h2
  · exact bump_le _
  · exact h3

theorem placeNotice_keeps (q : WqId) (n : NextState) (s : State) : Keeps s (placeNotice q n s) := place_keeps ..

/-- The end of a context of a queue that was configured in an earlier state. -/
theorem endContext_books {s₀ s : State} (c : Context) (st : Status) (sub : Sub) (p d : Nat) (byAbort : Bool)
    (h : KeepsBooks s₀ s) (hc : WorkRingLaw s₀ → (s.queue c.queue).ringSize ≠ 0) :
    KeepsBooks s₀ (endContext c st sub p d byAbort s) := by
  unfold endContext
  extract_lets q n entry suppressed s1 s2 s3
  have h1 : KeepsBooks s₀ s1 := h.trans (place_keeps ..).toKeepsBooks
  have hq : s1.queue c.queue = q := place_queue ..
  have hshape (hl : WorkRingLaw s1) : QueueShape q := hq ▸ hl.1 c.queue
  have h2 : KeepsBooks s₀ s2 := h1.setQueue (fun hk => endQueue_countersOk st n (hq ▸ hk)) fun hl₀ hl =>
    ⟨queueShape_of_same (hshape hl) rfl rfl rfl (.inr (.inr (hc hl₀))), fun _ => hc hl₀⟩
  have h3 : KeepsBooks s₀ s3 := by
    show KeepsBooks s₀ (if q.drain = true then _ else _)
    split
    · exact h2.trans (placeNotice_keeps ..).toKeepsBooks
    · exact h2
  split
  · exact h3.trans (emptySlot_keeps ..).toKeepsBooks
  · exact h3

/-- The end of a stacked context that has left the stack. -/
theorem endContext_keeps {s : State} {l : List Context} (c : Context) (st : Status) (sub : Sub) (p d : Nat) (byAbort : Bool)
    (hl : ∀ x ∈ l, x ∈ s.stack) (hc : c ∈ s.stack) : Keeps s (endContext c st sub p d byAbort { s with stack := l }) := by
  have hdrop : Keeps s { s with stack := l } := .dropStack hl
  exact ⟨endContext_books c st sub p d byAbort hdrop.toKeepsBooks fun h => h.2.1 c (List.mem_append_right _ hc),
    fun h => (hdrop.positions h).of_moverPart (endContext_moverPart ..)⟩

theorem abortStacked_keeps {c : Context} {s : State} (hc : c ∈ s.stack) : Keeps s (abortStacked c s) :=
  endContext_keeps c _ _ _ _ _ (fun _ => List.mem_of_mem_eraseP) hc

theorem endStackStopped_keeps (l : List Context) (s : State) (hl : ∀ c ∈ l, c ∈ s.stack) : Keeps s (endStackStopped l s) := by
  induction l generalizing s with
  | nil => exact .dropStack fun _ h => by cases h
  | cons c rest ih =>
    have hend : Keeps s (endContext c .stopped .none c.done 0 false { s with stack := rest }) :=
      endContext_keeps c _ _ _ _ _ (fun x hx => hl x (List.mem_cons_of_mem _ hx)) (hl c List.mem_cons_self)
    refine hend.trans (ih _ fun x hx => ?_)
    have hstack : (endContext c .stopped .none c.done 0 false { s with stack := rest }).stack = rest :=
      congrArg (fun m => m.2.1) (endContext_moverPart c .stopped .none c.done 0 false { s with stack := rest })
    rwa [hstack]

theorem endActive_books (st : Status) (sub : Sub) (p d : Nat) (s : State) : KeepsBooks s (endActive st sub p d s) := by
  unfold endActive
  split
  · exact .refl s
  · next c ha =>
    have hend : KeepsBooks s (endContext c st sub p d (s.queue c.queue).abortPending { s with active := none, currentLevel := 0 }) :=
      endContext_books c st sub p d _ (.dropActive s 0) fun h => h.2.1 c (by simp [contexts, ha])
    dsimp only
    split
    · exact hend.trans (finishAbort_keeps ..).toKeepsBooks
    · exact hend

/-- The active context's end leaves the stack and the segment alone. -/
theorem endActive_moverPart (st : Status) (sub : Sub) (p d : Nat) (s : State) :
    (endActive st sub p d s).moverPart = (none, s.stack, s.segment) := by
  unfold endActive
  split
  · next h => simp [State.moverPart, h]
  · dsimp only
    split <;> simp <;> rfl

/-! ## Positions -/

/-- Every stacked context has a position inside its data. -/
def StackOk (s : State) : Prop := ∀ c ∈ s.stack, PositionOk c

/-- With no segment in flight the law is one of the contexts alone. -/
theorem positionLaw_of_no_segment {s : State} (hg : s.segment = none) (hst : StackOk s) (ha : ∀ c ∈ s.active, PositionOk c) :
    PositionLaw s := by
  refine ⟨fun c hc => ?_, fun g hm => by simp [hg] at hm⟩
  rcases List.mem_append.mp hc with h | h
  · exact ha c (by simpa using h)
  · exact hst c h

theorem PositionLaw.stackOk {s : State} (h : PositionLaw s) : StackOk s := fun c hc => h.1 c (List.mem_append_right _ hc)

theorem PositionLaw.active {s : State} {c : Context} (h : PositionLaw s) (ha : s.active = some c) : PositionOk c :=
  h.1 c (by simp [contexts, ha])

/-- Without an active context no segment is in flight. -/
theorem PositionLaw.segment_none {s : State} (h : PositionLaw s) (ha : s.active = none) : s.segment = none :=
  Option.eq_none_iff_forall_ne_some.mpr fun g hg => by
    obtain ⟨c, hc, _⟩ := h.2 g hg
    simp [ha] at hc

theorem endActive_positions (st : Status) (sub : Sub) (p d : Nat) {s : State} (hg : s.segment = none) (hst : StackOk s) :
    PositionLaw (endActive st sub p d s) := by
  have hm := endActive_moverPart st sub p d s
  simp only [State.moverPart, Prod.mk.injEq] at hm
  obtain ⟨ha, hs, hseg⟩ := hm
  exact positionLaw_of_no_segment (hseg.trans hg) (fun c hc => hst c (hs ▸ hc)) fun c hc => by simp [ha] at hc

/-- The position after a segment that was not the last (R21). -/
theorem advance_positionOk {c : Context} {n : Nat} (h : PositionOk c) (hle : c.offset + n ≤ c.record.rowLength)
    (hl : c.done + n ≠ c.record.dataLength) : PositionOk (advance c n) := by
  obtain ⟨hgoes, hrow, hoff, hdone⟩ := h
  unfold advance
  split
  · next he =>
    have hdone' : c.done + n = (c.row + 1) * c.record.rowLength := by rw [Nat.add_mul, hdone]; omega
    refine ⟨hgoes, ?_, Nat.zero_lt_of_lt hoff, hdone'⟩
    have hne : c.row + 1 ≠ c.record.rows := fun he' => hl (by rw [hdone', he', WorkRecord.dataLength, Nat.mul_comm])
    show c.row + 1 < c.record.rows
    omega
  · next he =>
    refine ⟨hgoes, hrow, ?_, ?_⟩
    · show c.offset + n < c.record.rowLength
      omega
    · show c.done + n = c.row * c.record.rowLength + (c.offset + n)
      omega

/-! ## Selection -/

theorem eligible_of_nearest {s : State} {n : Nat} {q : WqId} (h : nearest s n = some q) : eligible s q = true := by
  have := List.find?_some h
  simp only [Bool.and_eq_true] at this
  exact this.1

theorem eligible_of_preemptor {s : State} {q : WqId} (h : preemptor s = some q) : eligible s q = true := by
  unfold preemptor at h
  dsimp only at h
  split at h
  · exact eligible_of_nearest h
  · cases h

/-- All that selection can decide (R30). -/
theorem choose_cases (s : State) :
    (∃ q, choose s = .start q ∧ eligible s q = true) ∨ (∃ c rest, choose s = .resume c rest ∧ s.stack = c :: rest)
    ∨ choose s = .idle := by
  unfold choose
  dsimp only
  split
  · cases hn : nearest s (eligibleLevel s) with
    | some q => exact .inl ⟨q, rfl, eligible_of_nearest hn⟩
    | none => exact .inr (.inr rfl)
  · cases hst : s.stack with
    | cons c rest => exact .inr (.inl ⟨c, rest, rfl, rfl⟩)
    | nil => exact .inr (.inr rfl)

/-- An eligible queue is configured. -/
theorem ringSize_of_eligible {s : State} {q : WqId} (h : WorkRingLaw s) (he : eligible s q = true) : (s.queue q).ringSize ≠ 0 :=
  ringSize_ne_zero_of_state (h.1 q) (by simp [((eligible_iff s q).mp he).1])

/-- The head moves on in its ring. -/
theorem queueShape_of_next_head {d e : Queue} (h : QueueShape d) (hne : d.ringSize ≠ 0) (hs : e.ringSize = d.ringSize)
    (hh : e.head = (d.head + 1) % d.ringSize) (ht : e.tail = d.tail) : QueueShape e := by
  rcases h with ⟨h0, _⟩ | ⟨h1, h2, h3, h4⟩
  · exact absurd h0 hne
  · exact .inr ⟨hs ▸ h1, hs ▸ h2, by rw [hh, hs]; exact Nat.mod_lt _ (by omega), by rw [ht, hs]; exact h4⟩

/-- A start from a slot that is not FULL is none. -/
theorem makeActive_eq_or (q : WqId) (s : State) : makeActive q s = s ∨ ∃ b, (s.queue q).slot = .full b := by
  cases hb : (s.queue q).slot with
  | empty => exact .inl (by simp only [makeActive, hb])
  | filling c => exact .inl (by simp only [makeActive, hb])
  | full b => exact .inr ⟨b, rfl⟩

/-- A record starts of a queue that was configured in an earlier state. -/
theorem makeActive_books {s₀ s : State} {q : WqId} (h : KeepsBooks s₀ s) (hq : WorkRingLaw s₀ → (s.queue q).ringSize ≠ 0) :
    KeepsBooks s₀ (makeActive q s) := by
  rcases makeActive_eq_or q s with he | ⟨b, hb⟩
  · rwa [he]
  · have hset : KeepsBooks s₀ ((reserve (.context q) ((s.queue q).ring.getD 0) s).setQueue q
        { s.queue q with head := ((s.queue q).head + 1) % (s.queue q).ringSize, slot := .empty, state := .running }) :=
      (h.trans (reserve_keeps ..).toKeepsBooks).setQueue id fun hl₀ hl =>
        ⟨queueShape_of_next_head (hl.1 q) (hq hl₀) rfl rfl rfl, id⟩
    simp only [makeActive, hb]
    refine hset.setContexts _ s.stack _ _ fun hl₀ hl c hc => ?_
    rcases List.mem_append.mp hc with hc | hc
    · have hcq : c.queue = q := by
        rw [Option.toList_some, List.mem_singleton] at hc
        rw [hc]
      rw [hcq, State.setQueue_queue_self]
      exact hq hl₀
    · exact hl.2.1 c (List.mem_append_right _ hc)

/-- What a start leaves: the stack and the segment, and the new context at its first byte. -/
theorem makeActive_moverPart (q : WqId) (s : State) :
    makeActive q s = s
    ∨ ∃ c : Context, (makeActive q s).moverPart = (some c, s.stack, s.segment) ∧ c.row = 0 ∧ c.offset = 0 ∧ c.done = 0 := by
  refine (makeActive_eq_or q s).imp_right fun ⟨b, hb⟩ => ?_
  simp only [makeActive, hb]
  exact ⟨_, rfl, rfl, rfl, rfl⟩

theorem beginSegment_books (s : State) : KeepsBooks s (beginSegment s).1 := by
  unfold beginSegment
  split
  · exact .refl s
  · split
    · exact ⟨id, id, id⟩
    · exact endActive_books ..

/-- A segment is as long as its destination's range. -/
theorem newSegment_length (c : Context) (src : Option OperandRange) (dst : OperandRange) :
    (newSegment c src dst).length = dst.length := by
  unfold newSegment
  dsimp only
  split
  · rfl
  · split <;> rfl

/-- The ranges looked up have the length of the segment (R10, R11). -/
theorem lookupOperands_length {s : State} {c : Context} {src : Option OperandRange} {dst : OperandRange}
    (h : lookupOperands s c = .ok (src, dst)) : dst.length = segmentLength c := by
  unfold lookupOperands at h
  dsimp only at h
  split at h
  · split at h
    · cases h
    · split at h
      · cases h
      · cases h
        rfl
  · split at h
    · cases h
    · cases h
      rfl

/-- A segment is formed as a part of its context's row, or its record ends. -/
theorem beginSegment_positions {s : State} (hg : s.segment = none) (hst : StackOk s) (ha : ∀ c ∈ s.active, PositionOk c) :
    PositionLaw (beginSegment s).1 := by
  unfold beginSegment
  split
  · exact positionLaw_of_no_segment hg hst ha
  · next c hc =>
    have hok := ha c hc
    split
    · next src dst hlook =>
      refine ⟨(positionLaw_of_no_segment hg hst ha).1, fun g hm => ⟨c, hc, ?_⟩⟩
      cases hm
      rw [newSegment_length, lookupOperands_length hlook]
      have hb := segmentLength_bounds hok.2.2.1
      exact ⟨hb.1, hb.2.2.1⟩
    · exact endActive_positions _ _ _ _ hg hst

theorem startRecord_books {s₀ s : State} {q : WqId} (h : KeepsBooks s₀ s) (hq : WorkRingLaw s₀ → (s.queue q).ringSize ≠ 0) :
    KeepsBooks s₀ (startRecord q s).1 := by
  have hmade := makeActive_books h hq
  unfold startRecord
  dsimp only
  split
  · exact hmade
  · split
    · exact hmade.trans (endActive_books ..)
    · exact hmade.trans (endActive_books ..)
    · exact hmade.trans (beginSegment_books _)

/-- A record that starts passes its checks, or it ends at once. -/
theorem startRecord_positions (q : WqId) {s : State} (hn : s.active = none) (hg : s.segment = none) (hst : StackOk s) :
    PositionLaw (startRecord q s).1 := by
  rcases makeActive_moverPart q s with he | ⟨c, hm, hrow, hoff, hdone⟩
  · simp only [startRecord, he, hn]
    exact positionLaw_of_no_segment hg hst fun c hc => by simp [hn] at hc
  · simp only [State.moverPart, Prod.mk.injEq] at hm
    obtain ⟨ha, hs, hseg⟩ := hm
    have hg' : (makeActive q s).segment = none := hseg.trans hg
    have hst' : StackOk (makeActive q s) := fun x hx => hst x (hs ▸ hx)
    simp only [startRecord, ha]
    split
    · exact endActive_positions _ _ _ _ hg' hst'
    · exact endActive_positions _ _ _ _ hg' hst'
    · next hgoes =>
      refine beginSegment_positions hg' hst' fun x hx => ?_
      obtain rfl : c = x := by simpa [ha] using hx
      obtain ⟨-, -, hlen, hrows, -⟩ := startCheck_goes hgoes
      exact ⟨hgoes, hrow ▸ hrows, hoff ▸ hlen, by rw [hdone, hrow, hoff, Nat.zero_mul]⟩

theorem startRecord_keeps {s : State} {q : WqId} (he : eligible s q = true) (ha : s.active = none) :
    Keeps s (startRecord q s).1 :=
  ⟨startRecord_books (.refl s) fun hl => ringSize_of_eligible hl he,
    fun h => startRecord_positions q ha (h.segment_none ha) h.stackOk⟩

theorem resumeContext_keeps {s : State} {c : Context} {rest : List Context} (hs : s.stack = c :: rest) (ha : s.active = none) :
    Keeps s (resumeContext c rest s).1 := by
  have hmem : c ∈ s.stack := hs ▸ List.mem_cons_self
  have hset : KeepsBooks s (s.setQueue c.queue { s.queue c.queue with state := .running }) :=
    (KeepsBooks.refl s).setQueue id fun hl _ =>
      ⟨queueShape_of_same (hl.1 c.queue) rfl rfl rfl (.inr (.inr (hl.2.1 c (List.mem_append_right _ hmem)))), id⟩
  have hbooks := hset.setContexts (some c) rest c.level s.startOrder fun _ hl x hx => hl.2.1 x (by
    rw [contexts, State.setQueue_active, State.setQueue_stack, ha, hs]
    exact hx)
  refine ⟨hbooks.trans (beginSegment_books _), fun h => ?_⟩
  refine beginSegment_positions (h.segment_none ha) (fun x hx => h.stackOk x (hs ▸ List.mem_cons_of_mem _ hx)) fun x hx => ?_
  obtain rfl : c = x := by simpa using hx
  exact h.stackOk c hmem

theorem selectLoop_keeps (n : Nat) (s : State) : Keeps s (selectLoop n s) := by
  induction n generalizing s with
  | zero => exact .refl s
  | succ n ih =>
    unfold selectLoop
    split
    · next h =>
      rcases choose_cases s with ⟨q, hq, he⟩ | ⟨c, rest, hc, hs⟩ | hi
      · rw [hq]
        dsimp only
        split
        · exact (startRecord_keeps he h.2).trans (ih _)
        · exact startRecord_keeps he h.2
      · rw [hc]
        dsimp only
        split
        · exact (resumeContext_keeps hs h.2).trans (ih _)
        · exact resumeContext_keeps hs h.2
      · rw [hi]
        exact .frame rfl
    · exact .refl s

theorem select_keeps (s : State) : Keeps s (select s) :=
  .after_frame (selectLoop_keeps ..) rfl

/-! ## Claims -/

theorem claimFreed_keeps (s : State) : Keeps s (claimFreed s) := by
  rcases claimFreed_cases s with h | ⟨_, _, h | h⟩ <;> rw [h]
  · exact select_keeps s
  · exact .after_frame (select_keeps _) rfl
  · exact .frame rfl

theorem selectOnFree_keeps (a s : State) : Keeps s (selectOnFree a s) := by
  unfold selectOnFree
  split
  · exact claimFreed_keeps s
  · exact .refl s

theorem selectOnIdle_keeps (a s : State) : Keeps s (selectOnIdle a s) := by
  unfold selectOnIdle
  split
  · exact .refl s
  · exact select_keeps s

theorem settleClaim_keeps (a s : State) : Keeps s (settleClaim a s) := by
  unfold settleClaim
  split
  · exact .after_frame (claimFreed_keeps _) rfl
  · exact .refl s

theorem selectAfter_keeps (r : State × Bool) : Keeps r.1 (selectAfter r) := by
  unfold selectAfter
  split
  · exact select_keeps _
  · exact .refl _

/-! ## The boundary of a segment -/

/-- The active context goes to the stack with its position advanced (R37). -/
theorem pushActive_books {s : State} {c : Context} (n : Nat) (ha : s.active = some c) :
    KeepsBooks s (pushActive (advance c n) (advanced c n s)) := by
  have hne (hl : WorkRingLaw s) : (s.queue c.queue).ringSize ≠ 0 := hl.2.1 c (by simp [contexts, ha])
  have hset : KeepsBooks s (s.setQueue c.queue
      { s.queue c.queue with state := .suspended, timesSuspended := bump (s.queue c.queue).timesSuspended }) :=
    (KeepsBooks.refl s).setQueue (fun ⟨h1, h2, h3, _, h5⟩ => ⟨h1, h2, h3, bump_le _, h5⟩) fun hl _ =>
      ⟨queueShape_of_same (hl.1 c.queue) rfl rfl rfl (.inr (.inr (hne hl))), id⟩
  have hpush : pushActive (advance c n) (advanced c n s) =
      { s.setQueue c.queue
          { s.queue c.queue with state := .suspended, timesSuspended := bump (s.queue c.queue).timesSuspended } with
        active := none, stack := advance c n :: s.stack } := by
    simp only [pushActive, advance_queue]
    rfl
  rw [hpush]
  refine hset.setContexts none (advance c n :: s.stack) s.currentLevel s.startOrder fun _ hl x hx => ?_
  rcases List.mem_cons.mp hx with rfl | hx
  · rw [advance_queue]
    exact hl.2.1 c (by simp [contexts, ha])
  · exact hl.2.1 x (List.mem_append_right _ hx)

@[simp] theorem pushActive_ringSize (c : Context) (s : State) (q : WqId) :
    ((pushActive c s).queue q).ringSize = (s.queue q).ringSize := by
  show ((s.setQueue c.queue _).queue q).ringSize = _
  rw [State.setQueue_queue]
  split
  · next h => rw [h]
  · rfl

theorem advanced_books {s : State} {c : Context} (n : Nat) (ha : s.active = some c) : KeepsBooks s (advanced c n s) :=
  (KeepsBooks.refl s).setContexts (some (advance c n)) s.stack s.currentLevel s.startOrder fun hl _ x hx => by
    rcases List.mem_append.mp hx with hx | hx
    · obtain rfl : x = advance c n := by simpa using hx
      rw [advance_queue]
      exact hl.2.1 c (by simp [contexts, ha])
    · exact hl.2.1 x (List.mem_append_right _ hx)

/-- All that the boundary rule can do to the active context: it ends, with selection or without; another record preempts it; or it
goes on with its next segment (R35). -/
theorem boundaryRule_cases (c : Context) (o : Outcome) (s : State) :
    (∃ st sub p d, boundaryRule c o s = select (endActive st sub p d s))
    ∨ ∃ n, o = .success n
        ∧ ((∃ st p, boundaryRule c o s = select (endActive st .none p 0 (advanced c n s)))
          ∨ (∃ p, boundaryRule c o s = endActive .stopped .none p 0 (advanced c n s))
          ∨ c.done + n ≠ c.record.dataLength
              ∧ ((∃ q, preemptor (advanced c n s) = some q
                    ∧ boundaryRule c o s = selectAfter (startRecord q (pushActive (advance c n) (advanced c n s))))
                ∨ boundaryRule c o s = selectAfter (beginSegment (advanced c n s)))) := by
  cases o with
  | aperture f op a => exact .inl ⟨_, _, _, _, rfl⟩
  | memError op a => exact .inl ⟨_, _, _, _, rfl⟩
  | memTimeout op a => exact .inl ⟨_, _, _, _, rfl⟩
  | mismatch off => exact .inl ⟨_, _, _, _, rfl⟩
  | success n =>
    refine .inr ⟨n, rfl, ?_⟩
    have ha : (advanced c n s).active = some (advance c n) := rfl
    have hrule := boundaryRule_success c n s
    split_ifs at hrule with hl hp he
    · exact .inl ⟨_, _, hrule.trans (congrArg select (endActive_eq_withActiveEnd _ _ _ _ ha).symm)⟩
    · exact .inl ⟨_, _, hrule.trans (congrArg select (endActive_eq_withActiveEnd _ _ _ _ ha).symm)⟩
    · exact .inr (.inl ⟨_, hrule.trans (endActive_eq_withActiveEnd _ _ _ _ ha).symm⟩)
    · refine .inr (.inr ⟨hl, ?_⟩)
      cases hpre : preemptor (advanced c n s) with
      | some q => exact .inl ⟨q, rfl, by rw [hrule, hpre]⟩
      | none => exact .inr (by rw [hrule, hpre, selectAfter_beginSegment ha])

theorem boundaryRule_books {c : Context} {s : State} (o : Outcome) (ha : s.active = some c) :
    KeepsBooks s (boundaryRule c o s) := by
  rcases boundaryRule_cases c o s with ⟨st, sub, p, d, h⟩ | ⟨n, _, ⟨st, p, h⟩ | ⟨p, h⟩ | ⟨_, ⟨q, hq, h⟩ | h⟩⟩ <;> rw [h]
  · exact (endActive_books ..).trans (select_keeps _).toKeepsBooks
  · exact (advanced_books n ha).trans ((endActive_books ..).trans (select_keeps _).toKeepsBooks)
  · exact (advanced_books n ha).trans (endActive_books ..)
  · refine (startRecord_books (pushActive_books n ha) fun hl => ?_).trans (selectAfter_keeps _).toKeepsBooks
    have hsize : (s.queue q).ringSize ≠ 0 := ringSize_of_eligible (s := s) hl (eligible_of_preemptor hq)
    rwa [pushActive_ringSize]
  · exact (advanced_books n ha).trans ((beginSegment_books _).trans (selectAfter_keeps _).toKeepsBooks)

/-- With no segment in flight any more, the boundary rule leaves every context at a position inside its data. -/
theorem boundaryRule_positions {c : Context} {o : Outcome} {s : State} (ha : s.active = some c) (hg : s.segment = none)
    (hp : PositionLaw s) (hn : ∀ n, o = .success n → c.offset + n ≤ c.record.rowLength) : PositionLaw (boundaryRule c o s) := by
  have hst := hp.stackOk
  rcases boundaryRule_cases c o s with ⟨st, sub, p, d, h⟩ | ⟨n, ho, ⟨st, p, h⟩ | ⟨p, h⟩ | ⟨hl, hgo⟩⟩
  · exact h ▸ (select_keeps _).positions (endActive_positions _ _ _ _ hg hst)
  · exact h ▸ (select_keeps _).positions (endActive_positions _ _ _ _ hg hst)
  · exact h ▸ endActive_positions _ _ _ _ hg hst
  · have hmoved : PositionOk (advance c n) := advance_positionOk (hp.active ha) (hn n ho) hl
    rcases hgo with ⟨q, _, h⟩ | h
    · refine h ▸ (selectAfter_keeps _).positions (startRecord_positions q rfl hg fun x hx => ?_)
      rcases List.mem_cons.mp hx with rfl | hx
      · exact hmoved
      · exact hst x hx
    · refine h ▸ (selectAfter_keeps _).positions (beginSegment_positions hg hst fun x hx => ?_)
      obtain rfl : advance c n = x := by simpa [advanced] using hx
      exact hmoved

theorem applyWaiting_keeps (s : State) : Keeps s (applyWaiting s) := by
  unfold applyWaiting applyUpdate
  split
  · dsimp only
    split <;> exact .frame rfl
  · exact .refl s

@[simp] theorem applyWaiting_active (s : State) : (applyWaiting s).active = s.active := by
  unfold applyWaiting applyUpdate
  split
  · dsimp only
    split <;> rfl
  · rfl

/-- A segment in flight is dropped. -/
theorem Keeps.dropSegment (s : State) : Keeps s { s with segment := none } :=
  ⟨⟨id, id, id⟩, fun h => ⟨h.1, fun _ hg => by cases hg⟩⟩

/-- A boundary keeps the laws when its success is of the segment in flight. -/
theorem segmentBoundary_keeps {o : Outcome} {s : State}
    (hn : PositionLaw s → ∀ c, s.active = some c → ∀ n, o = .success n → c.offset + n ≤ c.record.rowLength) :
    Keeps s (segmentBoundary o s) := by
  unfold segmentBoundary
  split
  · exact .dropSegment s
  · next c ha =>
    have hready : Keeps s { applyWaiting s with segment := none } := (applyWaiting_keeps s).trans (.dropSegment _)
    have ha' : ({ applyWaiting s with segment := none } : State).active = some c := by rw [← ha]; exact applyWaiting_active s
    have hrule : Keeps s (boundaryRule c o { applyWaiting s with segment := none }) :=
      ⟨hready.toKeepsBooks.trans (boundaryRule_books o ha'), fun hp =>
        boundaryRule_positions ha' rfl (hready.positions hp) (hn hp c ha)⟩
    dsimp only
    split
    · exact hrule.trans ((completeAdmin_keeps ..).trans (selectOnFree_keeps _ _))
    · exact hrule

/-- What the resolution of a request makes of a segment of length `n`: one of that length, or a success of that length. -/
def SegmentStep.HasLength (n : Nat) : SegmentStep → Prop
  | .continues g => g.length = n
  | .boundary (.success m) => m = n
  | .boundary _ => True

theorem settle_hasLength (f : SegFailure) (g : Segment) : (settle f g).HasLength g.length := by
  unfold settle
  split
  · rfl
  · unfold failureOutcome
    split <;> trivial

theorem enterWriting_length (c : Context) (g : Segment) : (enterWriting c g).length = g.length := by
  unfold enterWriting
  dsimp only
  split <;> rfl

theorem compareOutcome_hasLength (c : Context) (g : Segment) : (SegmentStep.boundary (compareOutcome c g)).HasLength g.length := by
  unfold compareOutcome
  split
  · trivial
  · rfl

theorem segmentTakes_hasLength (c : Context) (g : Segment) (k : Nat) (r : Resolution) :
    (segmentTakes c g k r).HasLength g.length := by
  by_cases hs : g.Settles
  · obtain ⟨f, hp, hf⟩ := hs
    exact segmentTakes_settling r hp hf ▸ settle_hasLength f (resolveRequest g k none)
  · cases r with
    | data b =>
      rw [segmentTakes_data k b hs]
      split_ifs
      · rfl
      · exact compareOutcome_hasLength c (resolveRequest g k (some b))
      · exact enterWriting_length c (resolveRequest g k (some b))
    | ack =>
      rw [segmentTakes_ack k hs]
      split_ifs <;> rfl
    | error => exact segmentTakes_failure k hs (.inl rfl) ▸ settle_hasLength _ (resolveRequest g k none)
    | timeout => exact segmentTakes_failure k hs (.inr rfl) ▸ settle_hasLength _ (resolveRequest g k none)

/-- The resolution of a request of the segment keeps the laws. -/
theorem moverTakes_keeps (k : Nat) (r : Resolution) (s : State) : Keeps s (moverTakes k r s) := by
  unfold moverTakes
  split
  · next c g ha hg =>
    have hlen := segmentTakes_hasLength c g k r
    split
    · next g' h =>
      have hlen' : g'.length = g.length := by rwa [h] at hlen
      refine .frame ?_
      simp only [State.lawPart, hg, Option.map_some, hlen']
      rfl
    · next o h =>
      refine segmentBoundary_keeps fun hp c' ha' n ho => ?_
      obtain rfl : c = c' := by simpa [ha] using ha'
      obtain ⟨c', hc', -, hle⟩ := hp.2 g hg
      obtain rfl : c = c' := by simpa [ha] using hc'
      have hlen' : n = g.length := by rwa [h, ho] at hlen
      exact hlen' ▸ hle
  · exact .refl s

end Sys2Proof.Machine
end

section
/-! PROOF. Every block's operations keep the laws of counters, settings, work rings and positions, and so does every step: the statement
EveryStepKeepsIndicesAndPositions. -/

namespace Sys2Proof.Machine

/-- Operations that keep the laws one after another keep them. -/
theorem foldl_keeps {α : Type} {f : State → α → State} (hf : ∀ s x, Keeps s (f s x)) (l : List α) (s : State) :
    Keeps s (l.foldl f s) := by
  induction l generalizing s with
  | nil => exact .refl s
  | cons x xs ih => exact (hf s x).trans (ih _)

/-! ## Engine control -/

theorem enterStarting_keeps (s : State) : Keeps s (enterStarting s) := by
  unfold enterStarting
  dsimp only
  split <;> exact .frame rfl

theorem enterRunning_keeps (b : List Byte) (s : State) : Keeps s (enterRunning b s) :=
  (Keeps.setRing (c := 0) (r := { s.ring 0 with
    state := .active, base := rootCqBase b, size := rootCqSize b, head := 0, tail := 0, phase := true
    threshold := rootThreshold b, ageLimit := rootAgeLimit b, notifyPending := false, unannounced := 0, ageTimer := none }) id).trans
    (.frame rfl)

theorem rootResolved_keeps (r : Resolution) (s : State) : Keeps s (rootResolved r s) := by
  unfold rootResolved
  split
  · dsimp only
    split
    · split
      · split
        · exact .after_frame ((enterRunning_keeps _ _).trans (select_keeps _)) rfl
        · exact .frame rfl
      · exact .frame rfl
    · split <;> exact .frame rfl
  · exact .refl s

theorem stopQueue_keeps (q : WqId) (s : State) : Keeps s (stopQueue q s) := by
  unfold stopQueue
  dsimp only
  split
  · exact (emptySlot_keeps q s).trans (.setQueue_same id rfl rfl rfl fun _ => .inr (.inl rfl))
  · exact emptySlot_keeps q s

theorem enterStopping_keeps (s : State) : Keeps s (enterStopping s) :=
  .after_frame ((endStackStopped_keeps s.stack { s with engine := .stopping, claimDeferred := false } fun _ h => h).trans
    (foldl_keeps (fun t q => stopQueue_keeps q t) _ _)) rfl

theorem reachStopped_keeps (s : State) : Keeps s (reachStopped s) := by
  have hring : Keeps s (s.setRing 0 (unconfiguredRing (s.ring 0))) := .setRing id
  unfold reachStopped
  dsimp only
  split
  · exact hring.trans (.after_frame (enterStarting_keeps _) rfl)
  · exact hring.trans (.frame rfl)

theorem dropOccupied_keeps (s : State) : Keeps s (dropOccupied s) :=
  .after_frame (t := { s with occupied := [] }) (.setCounters fun ⟨h1, h2, a, b, c, d, e, _⟩ => ⟨h1, h2, a, b, c, d, e, bumpBy_le ..⟩) rfl

theorem stopProgress_keeps (s : State) : Keeps s (stopProgress s) := by
  unfold stopProgress
  split
  · extract_lets t
    have hgrace : Keeps s t := by
      show Keeps s (if _ then _ else _)
      split
      · exact .frame rfl
      · exact .refl s
    clear_value t
    split
    · exact hgrace
    · split
      · exact hgrace.trans (reachStopped_keeps _)
      · exact hgrace
    · split
      · exact hgrace
      · exact hgrace.trans ((dropOccupied_keeps _).trans (reachStopped_keeps _))
  · exact .refl s

theorem finishStep_keeps (s : State) : Keeps s (finishStep s) := (stopProgress_keeps s).trans (grantAll_keeps _)

/-- The power-on values meet the laws, whatever came before (R167). -/
theorem reset_keeps (s : State) : Keeps s State.reset :=
  .of_laws (by decide) (by decide) (by decide) (by decide)

theorem powerOnReset_keeps (s : State) : Keeps s (powerOnReset s) := (reset_keeps s).trans (.frame rfl)
theorem softReset_keeps (s : State) : Keeps s (softReset s) := (reset_keeps s).trans (.frame rfl)

theorem runTo1_keeps (s : State) : Keeps s (runTo1 s) := by
  unfold runTo1
  split
  · exact (enterStarting_keeps s).trans (grantAll_keeps _)
  · exact .refl s

theorem runTo0_keeps (s : State) : Keeps s (runTo0 s) := by
  unfold runTo0
  split
  · exact (enterStopping_keeps s).trans (finishStep_keeps _)
  · split
    · exact .frame rfl
    · exact .refl s
  · exact .frame rfl
  · exact .refl s

theorem writeControl_keeps (v : Reg) (s : State) : Keeps s (writeControl v s) := by
  unfold writeControl
  split
  · exact softReset_keeps s
  · dsimp only
    split
    · exact .frame rfl
    · split
      · exact .after_frame (runTo1_keeps _) rfl
      · exact .after_frame (runTo0_keeps _) rfl

/-! ## The register port -/

theorem unlessHeld_keeps {f : State → State} (hf : ∀ s, Keeps s (f s)) (s : State) : Keeps s (unlessHeld f s) := by
  unfold unlessHeld
  split
  · exact hf s
  · exact .frame rfl

theorem rejectPost_keeps (s : State) : Keeps s (rejectPost s) :=
  (Keeps.setCounters fun ⟨h1, h2, a, b, c, _, e, f⟩ => ⟨h1, h2, a, b, c, bump_le s.counters.rejectedPosts, e, f⟩).trans (.frame rfl)

theorem rejectAck_keeps (s : State) : Keeps s (rejectAck s) :=
  (Keeps.setCounters fun ⟨h1, h2, a, b, c, d, _, f⟩ => ⟨h1, h2, a, b, c, d, bump_le s.counters.rejectedAcks, f⟩).trans (.frame rfl)

theorem postToQueue_keeps (q : WqId) (new : Nat) (s : State) : Keeps s (postToQueue q new s) := by
  unfold postToQueue
  dsimp only
  split
  · next h =>
    have hlt : new < (s.queue q).ringSize := by
      have := h.2
      simp only [tailAccepted, Bool.and_eq_true, decide_eq_true_eq] at this
      exact this.1
    refine .setQueue id fun hl => ⟨?_, id⟩
    rcases hl.1 q with ⟨h0, _⟩ | ⟨h1, h2, h3, _⟩
    · exact absurd h0 h.1
    · exact .inr ⟨h1, h2, h3, hlt⟩
  · exact rejectPost_keeps s

theorem postToAdmin_keeps (new : Nat) (s : State) : Keeps s (postToAdmin new s) := by
  unfold postToAdmin
  dsimp only
  split
  · exact .frame rfl
  · exact rejectPost_keeps s

theorem writePost_keeps (v : Reg) (s : State) : Keeps s (writePost v s) := by
  unfold writePost
  split
  · exact rejectPost_keeps s
  · split
    · exact postToAdmin_keeps ..
    · exact postToQueue_keeps ..

theorem acceptAck_keeps (c : CqId) (new : Nat) (s : State) : Keeps s (acceptAck c new s) := by
  have hring : Keeps s
      (s.setRing c { s.ring c with head := new, notifyPending := false, unannounced := 0, ageTimer := none }) := .setRing id
  exact hring.trans (grantAll_keeps _)

theorem writeAck_keeps (v : Reg) (s : State) : Keeps s (writeAck v s) := by
  unfold writeAck
  dsimp only
  split
  · exact rejectAck_keeps s
  · split
    · exact acceptAck_keeps ..
    · exact rejectAck_keeps s

theorem portWrite_keeps (offset : Nat) (v : Reg) (s : State) : Keeps s (portWrite offset v s) := by
  unfold portWrite
  split_ifs
  · exact writeControl_keeps v s
  · exact .frame rfl
  · exact .frame rfl
  · exact .frame rfl
  · exact writePost_keeps v s
  · exact writeAck_keeps v s
  · exact .refl s

theorem portAccess_keeps (a : Access) (s : State) : Keeps s (portAccess a s) := by
  unfold portAccess
  refine Keeps.trans ?_ (unlessHeld_keeps (fun t => ?_) _)
  · split
    · exact .refl s
    · exact .frame rfl
  · split
    · split
      · exact portWrite_keeps ..
      · exact .refl t
    · exact .frame rfl

/-! ## Admin commands -/

/-- A record that passes the five checks has an assigned opcode, good parameters and no refusal by the state (R135). -/
theorem adminCheck_none {s : State} {b : List Byte} (h : adminCheck s b = none) :
    adminParametersOk b = true ∧ stateRefusal s b = none := by
  unfold adminCheck at h
  split at h
  · cases h
  · split_ifs at h with h1 h2 h3
    split at h
    · cases h
    · next hs => exact ⟨by simpa using h3, hs⟩

theorem setEngine_keeps {b : List Byte} (s : State) (hop : adminOpcode b = opSetEngine) (h : adminCheck s b = none) :
    Keeps s (setEngine b s) := by
  have hparam := (adminCheck_none h).1
  simp only [adminParametersOk, hop, if_true, Bool.and_eq_true, decide_eq_true_eq, and_assoc] at hparam
  have hset : Keeps s { s with requestTimeout := paramTimeout b, stopGrace := paramGrace b } :=
    ⟨⟨id, fun _ => hparam, id⟩, id⟩
  exact hset.trans (completeAdmin_keeps ..)

theorem configureQueue_keeps {b : List Byte} (s : State) (hop : adminOpcode b = opConfigureQueue) (h : adminCheck s b = none) :
    Keeps s (configureQueue b s) := by
  have hparam := (adminCheck_none h).1
  simp only [adminParametersOk, hop, show opConfigureQueue ≠ opSetEngine by decide, if_true, if_false, powerOfTwoIn, Bool.and_eq_true,
    decide_eq_true_eq, and_assoc] at hparam
  obtain ⟨_, hlo, hhi, _⟩ := hparam
  have hset : Keeps s (s.setQueue (adminQueue b) (configuredQueue b (s.queue (adminQueue b)))) := by
    refine .setQueue id fun _ => ⟨.inr ⟨hlo, hhi, ?_, ?_⟩, fun _ => ?_⟩ <;> simp only [configuredQueue] <;> omega
  exact hset.trans (completeAdmin_keeps ..)

/-- ENABLE QUEUE passes its checks only for a configured queue (R141). -/
theorem ringSize_of_enable {b : List Byte} {s : State} (hop : adminOpcode b = opEnableQueue) (h : adminCheck s b = none) :
    (s.queue (adminQueue b)).ringSize ≠ 0 := by
  have hstate := (adminCheck_none h).2
  simp only [stateRefusal, hop, show opEnableQueue ≠ opConfigureQueue by decide, if_true, if_false, enableRefusal] at hstate
  intro h0
  simp [h0] at hstate

theorem enableQueue_keeps {b : List Byte} (s : State) (hop : adminOpcode b = opEnableQueue) (h : adminCheck s b = none) :
    Keeps s (enableQueue b s) := by
  have hne := ringSize_of_enable hop h
  unfold enableQueue
  dsimp only
  split
  · have hset : Keeps s (s.setQueue (adminQueue b) { s.queue (adminQueue b) with state := .idle }) :=
      .setQueue_same id rfl rfl rfl fun _ => .inr (.inr hne)
    exact hset.trans ((completeAdmin_keeps ..).trans (selectOnIdle_keeps _ _))
  · exact completeAdmin_keeps ..

/-- RESUME QUEUE passes its checks only for a HALTED queue (R146). -/
theorem halted_of_resume {b : List Byte} {s : State} (hop : adminOpcode b = opResumeQueue) (h : adminCheck s b = none) :
    (s.queue (adminQueue b)).state = .halted := by
  have hstate := (adminCheck_none h).2
  simp only [stateRefusal, hop, show opResumeQueue ≠ opConfigureQueue by decide, show opResumeQueue ≠ opEnableQueue by decide,
    if_true, if_false] at hstate
  by_contra hne
  simp [hne] at hstate

theorem resumeQueue_keeps {b : List Byte} (s : State) (hop : adminOpcode b = opResumeQueue) (h : adminCheck s b = none) :
    Keeps s (resumeQueue b s) := by
  have hhalted := halted_of_resume hop h
  have hset : Keeps s (s.setQueue (adminQueue b) (resumedQueue (bitOf (adminOptions b) 0) (s.queue (adminQueue b)))) := by
    refine .setQueue id fun hl => ?_
    have hshape := hl.1 (adminQueue b)
    have hne := ringSize_ne_zero_of_state hshape (by simp [hhalted])
    unfold resumedQueue
    refine ⟨?_, id⟩
    split
    · exact queueShape_of_next_head hshape hne rfl rfl rfl
    · exact queueShape_of_same hshape rfl rfl rfl (.inr (.inr hne))
  exact hset.trans ((completeAdmin_keeps ..).trans (selectOnIdle_keeps _ _))

/-- An IDLE or HALTED queue after its DISABLE (R142). -/
def disabledNow (q : WqId) (s : State) : State :=
  (emptySlot q s).setQueue q { (emptySlot q s).queue q with state := .disabled, haltCause := .none }

/-- A queue with a context after its DISABLE: the drain is requested and its entry reserved (R143). -/
def drainRequested (q : WqId) (s : State) : State :=
  emptySlot q ((reserve (.drain q) 0 s).setQueue q { s.queue q with drain := true })

/-- A DISABLE QUEUE that does not wait completes, with its queue left as it is, DISABLED or in its drain (R142, R143). -/
theorem applyDisable_cases {b : List Byte} {q : WqId} {s t : State} (h : applyDisable b q s = some t) :
    ∃ sub, ∃ u ∈ [s, disabledNow q s, drainRequested q s], t = completeAdmin b .ok sub 0 u := by
  have hnow (u : State) (hu : u ∈ [s, disabledNow q s, drainRequested q s])
      (e : some (completeAdmin b .ok .immediate 0 u) = some t) :
      ∃ sub, ∃ u ∈ [s, disabledNow q s, drainRequested q s], t = completeAdmin b .ok sub 0 u :=
    ⟨_, u, hu, (Option.some.inj e).symm⟩
  have hlater (u : State) (hu : u ∈ [s, disabledNow q s, drainRequested q s])
      (e : some (completeAdmin b .ok .deferred 0 u) = some t) :
      ∃ sub, ∃ u ∈ [s, disabledNow q s, drainRequested q s], t = completeAdmin b .ok sub 0 u :=
    ⟨_, u, hu, (Option.some.inj e).symm⟩
  unfold applyDisable at h
  dsimp only at h
  split at h
  · exact hnow s (by simp) h
  · exact hnow (disabledNow q s) (by simp) h
  · exact hnow (disabledNow q s) (by simp) h
  all_goals
    split_ifs at h
    · exact hlater s (by simp) h
    · exact hlater s (by simp) h
    · exact hlater (drainRequested q s) (by simp) h

theorem disabledNow_keeps (q : WqId) (s : State) : Keeps s (disabledNow q s) :=
  (emptySlot_keeps q s).trans (.setQueue_same id rfl rfl rfl fun _ => .inr (.inl rfl))

theorem drainRequested_keeps (q : WqId) (s : State) : Keeps s (drainRequested q s) := by
  have hset : Keeps (reserve (.drain q) 0 s) ((reserve (.drain q) 0 s).setQueue q { s.queue q with drain := true }) :=
    .setQueue_same id rfl rfl rfl fun _ => .inl rfl
  exact (reserve_keeps _ _ s).trans (hset.trans (emptySlot_keeps ..))

theorem applyDisable_keeps {b : List Byte} {q : WqId} {s t : State} (h : applyDisable b q s = some t) : Keeps s t := by
  obtain ⟨sub, u, hu, rfl⟩ := applyDisable_cases h
  have hkeeps : Keeps s u := by
    simp only [List.mem_cons, List.not_mem_nil, or_false] at hu
    rcases hu with rfl | rfl | rfl
    · exact .refl _
    · exact disabledNow_keeps q s
    · exact drainRequested_keeps q s
  exact hkeeps.trans (completeAdmin_keeps ..)

theorem waitFor_keeps (b : List Byte) (p : AdminPoint) (s : State) : Keeps s (waitFor b p s) := .frame rfl

theorem disableQueue_keeps (b : List Byte) (s : State) : Keeps s (disableQueue b s) := by
  unfold disableQueue
  split
  · next h => exact applyDisable_keeps h
  · exact waitFor_keeps ..

theorem abortQueue_keeps (b : List Byte) (s : State) : Keeps s (abortQueue b s) := by
  unfold abortQueue
  dsimp only
  split
  · have hset : Keeps s (s.setQueue (adminQueue b) { s.queue (adminQueue b) with abortPending := true }) :=
      .setQueue_same id rfl rfl rfl fun _ => .inl rfl
    exact hset.trans (waitFor_keeps ..)
  · split
    · next h => exact (abortStacked_keeps (List.mem_of_find?_eq_some h)).trans (finishAbort_keeps ..)
    · exact finishAbort_keeps ..

theorem configureCq_keeps (b : List Byte) (s : State) : Keeps s (configureCq b s) := by
  have hring : Keeps s (s.setRing (adminRingIndex b) (configuredRing b (s.ring (adminRingIndex b)))) := .setRing id
  exact hring.trans (completeAdmin_keeps ..)

theorem applyUpdate_keeps (u : ApertureUpdate) (s : State) : Keeps s (applyUpdate u s) := by
  unfold applyUpdate
  split <;> exact .frame rfl

theorem handUpdate_keeps (u : ApertureUpdate) (b : List Byte) (s : State) : Keeps s (handUpdate u b s) := by
  unfold handUpdate
  split
  · exact .frame rfl
  · exact (applyUpdate_keeps u s).trans (completeAdmin_keeps ..)

theorem clearCounters_keeps (s : State) : Keeps s (clearCounters s) := by
  have hzero : CounterOk 0 := Nat.zero_le _
  have hqueues : Keeps s (allQueues.foldl (fun s q => s.setQueue q
      { s.queue q with endedOk := 0, endedFault := 0, endedAborted := 0, timesSuspended := 0, discarded := 0 }) s) := by
    refine foldl_keeps (fun t q => ?_) allQueues s
    exact .setQueue_same (fun _ => ⟨hzero, hzero, hzero, hzero, hzero⟩) rfl rfl rfl fun _ => .inl rfl
  have hrings (u : State) :
      Keeps u (allRings.foldl (fun s c => s.setRing c { s.ring c with written := 0, discarded := 0 }) u) := by
    refine foldl_keeps (fun t c => ?_) allRings u
    exact .setRing fun _ => ⟨hzero, hzero⟩
  have hengine (u : State) : Keeps u { u with counters := EngineCounters.reset } :=
    .setCounters fun ⟨h1, h2, _⟩ => ⟨h1, h2, hzero, hzero, hzero, hzero, hzero, hzero⟩
  exact hqueues.trans ((hrings _).trans (hengine _))

theorem readStatistics_keeps (b : List Byte) (s : State) : Keeps s (readStatistics b s) := by
  unfold readStatistics
  dsimp only
  split
  · exact (clearCounters_keeps s).trans (waitFor_keeps ..)
  · exact waitFor_keeps ..

theorem queryQueue_keeps (b : List Byte) (s : State) : Keeps s (queryQueue b s) := waitFor_keeps ..

theorem markRecord_keeps (b : List Byte) (s : State) : Keeps s (markRecord b s) := completeAdmin_keeps ..

end Sys2Proof.Machine
end

section
/-! PROOF. Every event keeps the laws of counters, settings, work rings and positions: the statement
EveryStepKeepsIndicesAndPositions. -/

namespace Sys2Proof.Machine

/-! ## A checked record -/

theorem executeRecord_keeps {refusal : Option (Status × Sub)} {run : List Byte → State → State} {b : List Byte} {s : State}
    (h : refusal = none → Keeps s (run b s)) : Keeps s (executeRecord refusal run b s) := by
  unfold executeRecord
  refine Keeps.trans ?_ ((selectOnFree_keeps _ _).trans (finishStep_keeps _))
  split
  · exact completeAdmin_keeps ..
  · exact h rfl

/-- An effect chosen by a condition keeps the laws when each of the two does where it is chosen. -/
theorem ite_keeps {p : Prop} [Decidable p] {f g : State → State} {s : State} (hf : p → Keeps s (f s)) (hg : Keeps s (g s)) :
    Keeps s ((if p then f else g) s) := by
  split
  · next h => exact hf h
  · exact hg

theorem carryOut_keeps {b : List Byte} {s : State} (h : adminCheck s b = none) : Keeps s (carryOut b s) :=
  ite_keeps (fun hop => setEngine_keeps s hop h) <|
  ite_keeps (fun hop => configureQueue_keeps s hop h) <|
  ite_keeps (fun hop => enableQueue_keeps s hop h) <|
  ite_keeps (fun _ => disableQueue_keeps b s) <|
  ite_keeps (fun _ => abortQueue_keeps b s) <|
  ite_keeps (fun hop => resumeQueue_keeps s hop h) <|
  ite_keeps (fun _ => configureCq_keeps b s) <|
  ite_keeps (fun _ => handUpdate_keeps _ b s) <|
  ite_keeps (fun _ => handUpdate_keeps _ b s) <|
  ite_keeps (fun _ => readStatistics_keeps b s) <|
  ite_keeps (fun _ => queryQueue_keeps b s) <|
  markRecord_keeps b s

/-- The verdict on a checked record is that of the state as it stands (R132). -/
theorem DueLaw.verdict {s : State} (hd : DueLaw s) {b : List Byte} {v : Option (Status × Sub)}
    (h : s.admin = .executing b (.checked v)) : v = adminCheck s b := (hd.1 b v h).1

theorem settleRecord_keeps {s : State} (hd : DueLaw s) : Keeps s (settleRecord s) := by
  unfold settleRecord
  split
  · next h => exact executeRecord_keeps fun hn => carryOut_keeps ((hd.verdict h).symm.trans hn)
  · exact .refl s

/-! ## What comes before an event -/

theorem settleDeferred_keeps (s : State) : Keeps s (settleDeferred s) := by
  unfold settleDeferred
  split
  · exact (select_keeps s).trans (grantAll_keeps _)
  · exact .refl s

theorem lookAgain_keeps {s t : State} (h : lookAgain s = some t) : Keeps s t := by
  unfold lookAgain at h
  split at h
  · split at h
    · next hu =>
      cases h
      refine (applyDisable_keeps hu).trans (Keeps.trans ?_ (finishStep_keeps _))
      split
      · exact settleClaim_keeps ..
      · exact selectOnFree_keeps ..
    · cases h
  · cases h

theorem settleLook_keeps (s : State) : Keeps s (settleLook s) := by
  unfold settleLook
  split
  · cases h : lookAgain s with
    | none => exact .refl s
    | some t => exact lookAgain_keeps h
  · exact .refl s

theorem settleDue_keeps {s : State} (hd : DueLaw s) : Keeps s (settleDue s) :=
  (settleRecord_keeps hd).trans ((settleDeferred_keeps _).trans ((settleLook_keeps _).trans (settleDeferred_keeps _)))

theorem disableApplied_keeps (s : State) : Keeps s (disableApplied s) := by
  unfold disableApplied
  split
  · next h => exact lookAgain_keeps h
  · exact settleDeferred_keeps s

/-- An admin row keeps the laws when its effect does for a record of its own that has passed the checks. -/
theorem adminRow_keeps {mine : Nat → Bool} {run : List Byte → State → State} {s : State} (hd : DueLaw s)
    (hrun : ∀ b, mine (adminOpcode b) = true → adminCheck s b = none → Keeps s (run b s)) : Keeps s (adminRow mine run s) := by
  unfold adminRow
  split
  · next b v h =>
    split
    · next hm => exact executeRecord_keeps fun hn => hrun b hm ((hd.verdict h).symm.trans hn)
    · exact settleDue_keeps hd
  · exact settleDue_keeps hd

/-! ## The clients' answers -/

theorem entryWritten_keeps (c : CqId) (s : State) : Keeps s (entryWritten c s) := by
  unfold entryWritten
  split
  · exact .refl s
  · next o _ =>
    have hring : Keeps s (s.setRing c (writtenRing (s.ring c) o)) := .setRing fun h => ⟨bump_le _, h.2⟩
    exact hring.trans (.after_frame (claimFreed_keeps _) rfl)

theorem ringBroken_keeps (c : CqId) (s : State) : Keeps s (ringBroken c s) := by
  unfold ringBroken
  split
  · exact .refl s
  · dsimp only
    have hring (n : Nat) : Keeps s (s.setRing c { s.ring c with state := .broken, discarded := bumpBy (s.ring c).discarded n }) :=
      .setRing fun h => ⟨h.1, bumpBy_le ..⟩
    exact (hring _).trans (.after_frame (claimFreed_keeps _) rfl)

/-- The fetch in flight ends: its queue gets a new slot, and a state in which a configured queue may stand. -/
theorem fetchEnded_keeps {f : Fetch} {s : State} {d : Queue} (hf : s.fetch = some f)
    (hc : QueueCountersOk (s.queue f.queue) → QueueCountersOk d) (hs : d.ringSize = (s.queue f.queue).ringSize)
    (hh : d.head = (s.queue f.queue).head) (ht : d.tail = (s.queue f.queue).tail) :
    Keeps s { s.setQueue f.queue d with fetch := none } := by
  have hset : Keeps s (s.setQueue f.queue d) := .setQueue_same hc hs hh ht fun hl => .inr (.inr (hl.2.2 f hf))
  exact hset.trans (.dropFetch _)

theorem fetchData_keeps {f : Fetch} {s : State} (b : List Byte) (hf : s.fetch = some f) : Keeps s (fetchData f b s) := by
  unfold fetchData
  extract_lets d slot
  have hend : Keeps s { s.setQueue f.queue { d with slot := slot } with fetch := none } := fetchEnded_keeps hf id rfl rfl rfl
  exact hend.trans (.after_frame (claimFreed_keeps _) rfl)

theorem fetchFailed_keeps {f : Fetch} {s : State} (timeout : Bool) (hf : s.fetch = some f) : Keeps s (fetchFailed f timeout s) := by
  have hend (sl : Slot) (hold : Bool) (st : QueueState) (h : HaltCause) :
      Keeps s { s.setQueue f.queue { s.queue f.queue with slot := sl, hold := hold, state := st, haltCause := h } with fetch := none } :=
    fetchEnded_keeps hf id rfl rfl rfl
  unfold fetchFailed
  dsimp only
  split_ifs
  · exact (hend .empty _ _ _).trans (.after_frame (claimFreed_keeps _) rfl)
  · exact (hend .empty true _ _).trans (.after_frame (claimFreed_keeps _) rfl)
  · exact (hend .empty _ .halted .fetch).trans ((place_keeps ..).trans (selectOnFree_keeps _ _))

theorem fetchTakes_keeps (r : Resolution) (s : State) : Keeps s (fetchTakes r s) := by
  unfold fetchTakes
  split
  · exact .refl s
  · next f hf =>
    cases r with
    | data b => exact fetchData_keeps b hf
    | timeout => exact fetchFailed_keeps true hf
    | ack => exact fetchFailed_keeps false hf
    | error => exact fetchFailed_keeps false hf

theorem adminRecordTakes_keeps (r : Resolution) (s : State) : Keeps s (adminRecordTakes r s) := by
  have hhalt (i : Nat) (e : Entry) :
      Keeps s (selectOnFree s (place .adminRecord 0 e false false { s with admin := .halted i })) :=
    .after_frame ((place_keeps ..).trans (selectOnFree_keeps _ _)) rfl
  unfold adminRecordTakes
  split
  · cases r with
    | data b => exact .frame rfl
    | ack => exact hhalt _ _
    | error => exact hhalt _ _
    | timeout => exact hhalt _ _
  · exact .refl s

theorem adminWriteTakes_keeps (k : Nat) (r : Resolution) (s : State) : Keeps s (adminWriteTakes k r s) := by
  unfold adminWriteTakes
  split
  · dsimp only
    split
    · refine Keeps.trans ?_ (selectOnFree_keeps _ _)
      split <;> exact completeAdmin_keeps ..
    · exact .frame rfl
  · exact .refl s

theorem resolve_keeps (o : Owner) (r : Resolution) (s : State) : Keeps s (resolve o r s) := by
  cases o with
  | completion c =>
    cases r with
    | ack => exact entryWritten_keeps c s
    | data b => exact entryWritten_keeps c s
    | error => exact ringBroken_keeps c s
    | timeout => exact ringBroken_keeps c s
  | adminRecord => exact adminRecordTakes_keeps r s
  | rootRead => exact rootResolved_keeps r s
  | adminWrite k => exact adminWriteTakes_keeps k r s
  | fetch => exact fetchTakes_keeps r s
  | mover k => exact moverTakes_keeps k r s

/-! ## The memory port's events -/

theorem takeStray_keeps (s : State) : Keeps s (takeStray s) := by
  have hcount : Keeps s { s with counters := { s.counters with strayResponses := bump s.counters.strayResponses } } :=
    .setCounters fun ⟨h1, h2, a, b, _, d, e, f⟩ => ⟨h1, h2, a, b, bump_le _, d, e, f⟩
  exact hcount.trans (.frame rfl)

theorem takeLate_keeps (t : TagId) (s : State) : Keeps s (takeLate t s) := by
  have hcount : Keeps s { s with counters := { s.counters with lateResponses := bump s.counters.lateResponses } } :=
    .setCounters fun ⟨h1, h2, a, _, c, d, e, f⟩ => ⟨h1, h2, a, bump_le _, c, d, e, f⟩
  exact hcount.trans (.after_frame (grantAll_keeps _) rfl)

theorem setTag_keeps (t : TagId) (g : TagState) (s : State) : Keeps s (s.setTag t g) := .frame rfl

theorem takeAnswer_keeps (t : TagId) (o : Owner) (kind : ReqKind) (n : Nat) (r : Result) (s : State) :
    Keeps s (takeAnswer t o kind n r s) :=
  (resolve_keeps ..).trans ((finishStep_keeps _).trans ((setTag_keeps t .free _).trans (grantAll_keeps _)))

theorem portTakes_keeps (tag : BitVec 8) (r : Result) (s : State) : Keeps s (portTakes tag r s) := by
  unfold portTakes
  split
  · dsimp only
    split
    · exact takeStray_keeps s
    · exact takeLate_keeps _ s
    · exact takeAnswer_keeps ..
  · exact takeStray_keeps s

theorem takeResponse_keeps (tag : BitVec 8) (r : Result) {s : State} (hd : DueLaw s) : Keeps s (takeResponse tag r s) :=
  (settleDue_keeps hd).trans (unlessHeld_keeps (portTakes_keeps tag r) _)

theorem takeTimeout_keeps (t : TagId) (s : State) : Keeps s (takeTimeout t s) := by
  have hcount : Keeps s { s with counters := { s.counters with requestTimeouts := bump s.counters.requestTimeouts } } :=
    .setCounters fun ⟨h1, h2, _, b, c, d, e, f⟩ => ⟨h1, h2, bump_le _, b, c, d, e, f⟩
  unfold takeTimeout
  split
  · exact hcount.trans (.after_frame ((resolve_keeps ..).trans (finishStep_keeps _)) rfl)
  · exact .refl s

/-! ## Timers and claims -/

theorem expireAge_keeps (c : CqId) (s : State) : Keeps s (expireAge c s) := by
  unfold expireAge
  split
  · exact .setRing id
  · exact .refl s

theorem expireGrace_keeps (s : State) : Keeps s (expireGrace s) := by
  unfold expireGrace
  split
  · exact .after_frame (finishStep_keeps _) rfl
  · exact .refl s

theorem takeUp_keeps (s : State) : Keeps s (takeUp s) := by
  unfold takeUp
  split
  · exact .after_frame ((settleClaim_keeps _ _).trans (grantAll_keeps _)) rfl
  · exact settleDeferred_keeps s

/-- The fetch unit chooses a candidate (R61). -/
theorem fetchCandidate_of_foldl {s : State} {q : WqId} (l : List WqId) (best : Option WqId)
    (h : l.foldl (betterCandidate s) best = some q) : best = some q ∨ fetchCandidate s q = true := by
  induction l generalizing best with
  | nil => exact .inl h
  | cons x xs ih =>
    rcases ih _ h with hx | hc
    · unfold betterCandidate at hx
      split_ifs at hx with hcand
      · split at hx
        · exact .inr (Option.some.inj hx ▸ hcand)
        · split_ifs at hx
          · exact .inr (Option.some.inj hx ▸ hcand)
          · exact .inl hx
      · exact .inl hx
    · exact .inr hc

theorem fetchCandidate_of_claim {s : State} {q : WqId} (h : fetchClaim s = some q) : fetchCandidate s q = true := by
  unfold fetchClaim at h
  split_ifs at h
  rcases fetchCandidate_of_foldl allQueues none h with h | h
  · cases h
  · exact h

/-- A queue with a posted record is configured (R51). -/
theorem ringSize_of_candidate {s : State} {q : WqId} (h : fetchCandidate s q = true) : (s.queue q).ringSize ≠ 0 := by
  intro h0
  simp [fetchCandidate, Queue.posted, postedCount, h0] at h

theorem beginFetch_keeps {q : WqId} {s : State} (h : fetchCandidate s q = true) : Keeps s (beginFetch q s) := by
  unfold beginFetch
  extract_lets d ring
  have hset : Keeps s (s.setQueue q { d with slot := .filling false }) := .setQueue_same id rfl rfl rfl fun _ => .inl rfl
  have hsize : ((s.setQueue q { d with slot := .filling false }).queue q).ringSize ≠ 0 := by
    rw [State.setQueue_queue, if_pos rfl]
    exact ringSize_of_candidate h
  have hfetch (u : State) (f : Fetch) (hu : (u.queue f.queue).ringSize ≠ 0) : Keeps u { u with fetch := some f } :=
    ⟨⟨id, id, fun ⟨h1, h2, _⟩ => ⟨h1, h2, fun x hx => by cases hx; exact hu⟩⟩, id⟩
  have hissue : Keeps s { s.setQueue q { d with slot := .filling false } with fetch := some ⟨q, d.head, ring, false⟩ } :=
    hset.trans (hfetch _ _ hsize)
  exact hissue.trans (.after_frame ((settleClaim_keeps _ _).trans (grantAll_keeps _)) rfl)

theorem fetchIssue_keeps (s : State) : Keeps s (fetchIssue s) := by
  unfold fetchIssue
  split
  · next h => exact beginFetch_keeps (fetchCandidate_of_claim h)
  · exact settleDeferred_keeps s

/-! ## Every event -/

/-- A register access or a timer's expiry comes after what is due (R180). -/
theorem afterDue_keeps {s : State} (hd : DueLaw s) {f : State → State} (hf : ∀ u, Keeps u (f u)) :
    Keeps s (f (settleDue s)) := (settleDue_keeps hd).trans (hf _)

theorem writeFlags_keeps (v : Reg) (s : State) : Keeps s (writeFlags v s) := .frame rfl

theorem exec_keeps {i : Instr} {s t : State} (hd : DueLaw s) (h : exec i s = .next t) : Keeps s t := by
  have hop {op : Nat} {b : List Byte} (e : isOp op (adminOpcode b) = true) : adminOpcode b = op := by simpa [isOp] using e
  have hcontrol (v : Reg) := afterDue_keeps hd (unlessHeld_keeps (writeControl_keeps v))
  have hpost (v : Reg) := afterDue_keeps hd (unlessHeld_keeps (writePost_keeps v))
  cases i <;> cases h
  case powerOnReset => exact afterDue_keeps hd powerOnReset_keeps
  case softReset v => exact hcontrol v
  case runWritten1 v => exact hcontrol v
  case runWritten0 v => exact hcontrol v
  case notifyEnable v => exact hcontrol v
  case flagsClear v => exact afterDue_keeps hd (unlessHeld_keeps (writeFlags_keeps v))
  case registerWrite => exact afterDue_keeps hd (portAccess_keeps _)
  case misusedAccess => exact afterDue_keeps hd (portAccess_keeps _)
  case postWork v => exact hpost v
  case postAdmin v => exact hpost v
  case cqAck v => exact afterDue_keeps hd (unlessHeld_keeps (writeAck_keeps v))
  case unknownOpcode => exact adminRow_keeps hd fun b _ _ => markRecord_keeps b s
  case setEngine => exact adminRow_keeps hd fun b e hc => setEngine_keeps s (hop e) hc
  case configureQueue => exact adminRow_keeps hd fun b e hc => configureQueue_keeps s (hop e) hc
  case enableQueue => exact adminRow_keeps hd fun b e hc => enableQueue_keeps s (hop e) hc
  case disableQueue => exact adminRow_keeps hd fun b _ _ => disableQueue_keeps b s
  case disableQueueApplied => exact (settleRecord_keeps hd).trans (disableApplied_keeps _)
  case abortQueue => exact adminRow_keeps hd fun b _ _ => abortQueue_keeps b s
  case resumeQueue => exact adminRow_keeps hd fun b e hc => resumeQueue_keeps s (hop e) hc
  case configureCq => exact adminRow_keeps hd fun b _ _ => configureCq_keeps b s
  case loadAperture => exact adminRow_keeps hd fun b _ _ => handUpdate_keeps _ b s
  case clearAperture => exact adminRow_keeps hd fun b _ _ => handUpdate_keeps _ b s
  case readStatistics => exact adminRow_keeps hd fun b _ _ => readStatistics_keeps b s
  case queryQueue => exact adminRow_keeps hd fun b _ _ => queryQueue_keeps b s
  case mark => exact adminRow_keeps hd fun b _ _ => markRecord_keeps b s
  case takeUp => exact (settleRecord_keeps hd).trans ((settleLook_keeps _).trans (takeUp_keeps _))
  case fetchIssue => exact (settleRecord_keeps hd).trans ((settleLook_keeps _).trans (fetchIssue_keeps _))
  case dataOrAckResponse => exact takeResponse_keeps _ _ hd
  case errorResponse => exact takeResponse_keeps _ _ hd
  case requestTimeout tag => exact afterDue_keeps hd (takeTimeout_keeps tag)
  case lateResponse => exact takeResponse_keeps _ _ hd
  case strayResponse => exact takeResponse_keeps _ _ hd
  case ageTimerExpiry c => exact afterDue_keeps hd (expireAge_keeps c)
  case stopGraceExpiry => exact afterDue_keeps hd expireGrace_keeps

/-- The waiting commands are nothing to what is due. -/
theorem DueLaw.pending {s : State} (hd : DueLaw s) (l : List Instr) : DueLaw { s with pending := l } := hd

theorem step_keeps {s t : State} (hd : DueLaw s) (h : step s = .next t) : Keeps s t := by
  unfold step at h
  split at h
  · cases h
    exact settleDue_keeps hd
  · exact .after_frame (exec_keeps (hd.pending _) h) rfl

/-- Settles O59: `Keeps`, the four laws as one relation between a state and a later one, holds of every block's operations, so of every
event and every step. -/
theorem everyStepKeepsIndicesAndPositions : Obligations.EveryStepKeepsIndicesAndPositions := by
  intro s t hd h
  have k := step_keeps hd h
  exact ⟨k.counters, k.settings, k.workRings, k.positions⟩

end Sys2Proof.Machine
end

section
/-! PROOF. Placements, the emptying of a slot and the claims of a freed entry: the statement PlacementAndEmptyingFollowTheirTables. -/

namespace Sys2Proof.Machine

/-! ## The emptying of a slot (R59, R63) -/

theorem emptySlot_empty {s : State} {q : WqId} (h : (s.queue q).slot = .empty) : emptySlot q s = s := by simp [emptySlot, h]

theorem emptySlot_full {s : State} {q : WqId} {b : List Byte} (h : (s.queue q).slot = .full b) :
    emptySlot q s = s.setQueue q { s.queue q with slot := .empty } := by simp [emptySlot, h]

theorem emptySlot_cancelled {s : State} {q : WqId} (h : (s.queue q).slot = .filling true) : emptySlot q s = s := by
  simp [emptySlot, h]

theorem emptySlot_waiting {s : State} {q : WqId} (h : (s.queue q).slot = .filling false) (hw : fetchWaitsFor s q = true) :
    emptySlot q s = { s.setQueue q { s.queue q with slot := .empty } with
                      fetch := none, reserved := removeHolder .fetch s.reserved } := by
  simp only [emptySlot, h, hw]
  rfl

theorem emptySlot_issued {s : State} {q : WqId} (h : (s.queue q).slot = .filling false) (hw : fetchWaitsFor s q = false) :
    emptySlot q s = s.setQueue q { s.queue q with slot := .filling true } := by simp [emptySlot, h, hw]

/-! ## The other holders' conditions (R109) -/

/-- A work ring has a posted record exactly when its indices differ (R50, R51). -/
theorem posted_pos_iff {d : Queue} (h : QueueShape d) : 0 < d.posted ↔ d.head ≠ d.tail := by
  unfold Queue.posted postedCount
  rcases h with ⟨h0, _, hh, ht⟩ | ⟨hlo, _, hh, ht⟩
  · simp [h0, hh, ht]
  · rw [if_neg (by omega)]
    rcases Nat.lt_or_ge d.tail d.head with hlt | hge
    · rw [Nat.mod_eq_of_lt (by omega)]
      omega
    · rw [show d.tail + d.ringSize - d.head = d.tail - d.head + d.ringSize by omega, Nat.add_mod_right,
        Nat.mod_eq_of_lt (by omega)]
      omega

/-- A queue the fetch unit may serve (R60). -/
theorem fetchCandidate_iff {s : State} {q : WqId} (h : QueueShape (s.queue q)) :
    fetchCandidate s q = true ↔ s.engine = .running
      ∧ ((s.queue q).state = .idle ∨ (s.queue q).state = .running ∨ (s.queue q).state = .suspended)
      ∧ (s.queue q).drain = false ∧ (s.queue q).abortPending = false ∧ (s.queue q).hold = false
      ∧ (s.queue q).slot = .empty ∧ (s.queue q).head ≠ (s.queue q).tail := by
  rw [← posted_pos_iff h]
  simp [fetchCandidate, Nat.succ_le_iff, or_assoc, and_assoc]

/-- The fetch unit's choice finds a candidate where there is one (R61). -/
theorem foldl_betterCandidate_isSome (s : State) (l : List WqId) (best : Option WqId) :
    (l.foldl (betterCandidate s) best).isSome = true ↔ best.isSome = true ∨ ∃ q ∈ l, fetchCandidate s q = true := by
  induction l generalizing best with
  | nil => simp
  | cons x xs ih =>
    have hx : (betterCandidate s best x).isSome = true ↔ best.isSome = true ∨ fetchCandidate s x = true := by
      unfold betterCandidate
      by_cases hc : fetchCandidate s x = true
      · simp only [hc, if_true, or_true, iff_true]
        cases best with
        | none => rfl
        | some b =>
          dsimp only
          split <;> rfl
      · simp [hc]
    simp only [List.foldl_cons, ih, hx, List.mem_cons, exists_eq_or_imp, or_assoc]

theorem mem_allQueues (q : WqId) : q ∈ allQueues := by revert q; decide

/-- The fetch unit's claim: it is idle, an entry is free and a candidate waits (R61). -/
theorem fetchClaim_isSome_iff (s : State) :
    (fetchClaim s).isSome = true ↔ s.fetch = none ∧ 0 < freeEntries s ∧ ∃ q, fetchCandidate s q = true := by
  have hchosen : (chosenCandidate s).isSome = true ↔ ∃ q, fetchCandidate s q = true := by
    simp [chosenCandidate, foldl_betterCandidate_isSome, mem_allQueues]
  rw [← hchosen, ← Option.isNone_iff_eq_none, ← decide_eq_true_iff (p := 0 < freeEntries s), ← and_assoc]
  unfold fetchClaim hasFree
  split
  · next h => simp_all
  · next h => simp_all

/-- The admin unit's claim (R131). -/
theorem canTakeUp_iff (s : State) :
    canTakeUp s = true ↔ s.engine = .running ∧ s.admin = .idle ∧ 0 < s.adminRing.posted ∧ 0 < freeEntries s := by
  simp [canTakeUp, hasFree, Nat.succ_le_iff, and_assoc]

/-- The claim of a DISABLE QUEUE that waits for an entry (R143). -/
theorem awaitsEntry_iff (s : State) :
    awaitsEntry s = true ↔ ∃ b p, s.admin = .executing b (.waitEntry p) ∧ drainNeedsEntry s p = true := by
  unfold awaitsEntry
  split
  · next b q h =>
    refine ⟨fun hd => ⟨b, q, h, hd⟩, ?_⟩
    rintro ⟨b', q', h', hd⟩
    obtain ⟨rfl, rfl⟩ : b = b' ∧ q = q' := by simpa [h] using h'
    exact hd
  · next hno =>
    refine ⟨nofun, ?_⟩
    rintro ⟨b, q, h, _⟩
    exact absurd h (hno b q)

/-- The scheduler's claim (R31). -/
theorem schedulerClaims_iff (s : State) :
    schedulerClaims s = true ↔ s.engine = .running ∧ s.active = none ∧ ∃ q, choose s = .start q := by
  unfold schedulerClaims
  cases choose s <;> simp

/-- While the engine is RUNNING, another holder's condition is the admin unit's, the fetch unit's or that of a DISABLE QUEUE that waits
(R60, R109, R131, R143). -/
theorem rivalClaims_iff {s : State} (hw : WorkRingLaw s) (he : s.engine = .running) :
    rivalClaims s = true ↔
      (s.engine = .running ∧ s.admin = .idle ∧ 0 < s.adminRing.posted ∧ 0 < freeEntries s)
      ∨ (s.engine = .running ∧ s.fetch = none ∧ 0 < freeEntries s ∧ ∃ p,
          ((s.queue p).state = .idle ∨ (s.queue p).state = .running ∨ (s.queue p).state = .suspended)
          ∧ (s.queue p).drain = false ∧ (s.queue p).abortPending = false ∧ (s.queue p).hold = false
          ∧ (s.queue p).slot = .empty ∧ (s.queue p).head ≠ (s.queue p).tail)
      ∨ (∃ b p, s.admin = .executing b (.waitEntry p)
          ∧ ((s.queue p).state = .running ∨ (s.queue p).state = .suspended) ∧ (s.queue p).drain = false) := by
  simp only [rivalClaims, Bool.or_eq_true, or_assoc, canTakeUp_iff, fetchClaim_isSome_iff, awaitsEntry_iff, drainNeedsEntry_iff,
    fetchCandidate_iff (hw.1 _), he, true_and, ne_eq, reduceCtorEq, not_false_eq_true, and_true]

/-! ## The claim of a freed entry (R109) -/

theorem claimFreed_unrivalled {s : State} (h : ¬ (schedulerClaims s = true ∧ rivalClaims s = true)) : claimFreed s = select s := by
  unfold claimFreed
  rw [if_neg (by simpa using h)]

theorem claimFreed_rivalled {s : State} (hs : schedulerClaims s = true) (hr : rivalClaims s = true) :
    claimFreed s =
      if Config.schedulerClaimsFirst s.claimTurn = true then select { s with claimTurn := s.claimTurn + 1 }
      else { s with claimTurn := s.claimTurn + 1, claimDeferred := true } := by
  unfold claimFreed
  rw [if_pos (by simp [hs, hr])]

/-- Settles O29: each table is a case split of its operation; the contest of R109 is the two Boolean conditions of `claimFreed`, read
off the state by `schedulerClaims_iff` and `rivalClaims_iff`. -/
theorem placementAndEmptyingFollowTheirTables : Obligations.PlacementAndEmptyingFollowTheirTables := by
  refine ⟨removeHolder_map, ?_, ?_, fun a s => ⟨selectOnFree_of_le, selectOnFree_of_lt⟩, ?_⟩
  · intro h c e suppressed now s released
    refine ⟨?_, ?_, ?_⟩
    · rintro rfl
      exact place_suppressed h c e now s
    · rintro rfl hb
      exact place_broken h c e now s hb
    · rintro rfl hb
      exact place_occupied h c e now s hb
  · refine fun q s => ⟨emptySlot_empty, fun b => emptySlot_full, fun i c hq hf => ?_, fun i c hq hf => ?_, emptySlot_cancelled⟩
    · exact emptySlot_waiting hq (by simp [fetchWaitsFor, hf])
    · exact emptySlot_issued hq (by simp [fetchWaitsFor, hf])
  · intro s hw starts rival
    have hstarts : starts ↔ schedulerClaims s = true := (schedulerClaims_iff s).symm
    have hrival (h : starts) : rival ↔ rivalClaims s = true := (rivalClaims_iff hw h.1).symm
    have hcontest (h : starts) (k : rival) := claimFreed_rivalled (hstarts.mp h) ((hrival h).mp k)
    refine ⟨fun h => claimFreed_unrivalled ?_, fun h k hf => ?_, fun h k hf => ?_⟩
    · rintro ⟨hs, hr⟩
      have h' := hstarts.mpr hs
      exact h ⟨h', (hrival h').mpr hr⟩
    · rw [hcontest h k, if_pos hf]
    · rw [hcontest h k, if_neg (by simp [hf])]

end Sys2Proof.Machine
end

section
/-! PROOF. The bytes of an entry, each client's ask, and whom the next grant serves: the statement ClientsAskInTheFixedOrder. -/

namespace Sys2Proof.Machine

/-! ## Fields of little-endian bytes (R172) -/

@[simp] theorem leBytes_length (n v : Nat) : (leBytes n v).length = n := by
  induction n generalizing v with
  | zero => rfl
  | succ n ih => simp [leBytes, ih]

@[simp] theorem zeros_length (n : Nat) : (zeros n).length = n := List.length_replicate ..

theorem leNat_leBytes (n v : Nat) : leNat (leBytes n v) = v % 256 ^ n := by
  induction n generalizing v with
  | zero => simp [leBytes, leNat, Nat.mod_one]
  | succ n ih => rw [leBytes, leNat, ih, Nat.pow_succ', Nat.mod_mul, BitVec.toNat_ofNat]

theorem leNat_zeros (n : Nat) : leNat (zeros n) = 0 := by
  induction n with
  | zero => rfl
  | succ n ih => simpa [zeros, List.replicate_succ, leNat] using ih

/-- A field that begins behind the first bytes is one of the rest. -/
theorem field_append {pre rest : List Byte} {off n : Nat} (h : pre.length ≤ off) :
    field (pre ++ rest) off n = field rest (off - pre.length) n := by
  rw [field, field, slice, slice, List.drop_append, List.drop_eq_nil_of_le h, List.nil_append]

/-- A field over the first bytes is their value. -/
theorem field_first {pre rest : List Byte} {n : Nat} (h : pre.length = n) : field (pre ++ rest) 0 n = leNat pre := by
  rw [field, slice, List.drop_zero, List.take_append_of_le_length (by omega), List.take_of_length_le (by omega)]

theorem field_leBytes (n v : Nat) (rest : List Byte) : field (leBytes n v ++ rest) 0 n = v % 256 ^ n := by
  rw [field_first (leBytes_length n v), leNat_leBytes]

theorem field_zeros (n : Nat) (rest : List Byte) : field (zeros n ++ rest) 0 n = 0 := by
  rw [field_first (zeros_length n), leNat_zeros]

/-- Each part of an entry stands at the sum of the lengths before it (R175). -/
theorem entryBytes_fields (e : Entry) (phase : Bool) :
    field (entryBytes e phase) 0 1 = statusCode e.status % 256 ^ 1 ∧ field (entryBytes e phase) 1 1 = subCode e.sub % 256 ^ 1
    ∧ field (entryBytes e phase) 2 1 = e.queue % 256 ^ 1 ∧ field (entryBytes e phase) 3 1 = phase.toNat % 256 ^ 1
    ∧ field (entryBytes e phase) 4 2 = e.tag % 256 ^ 2 ∧ field (entryBytes e phase) 6 2 = e.head % 256 ^ 2
    ∧ field (entryBytes e phase) 8 4 = e.progress % 256 ^ 4 ∧ field (entryBytes e phase) 12 4 = 0
    ∧ field (entryBytes e phase) 16 8 = e.detail % 256 ^ 8 ∧ field (entryBytes e phase) 24 8 = 0 := by
  have hlast : field (zeros 8) 0 8 = 0 := rfl
  simp only [entryBytes, List.append_assoc]
  refine ⟨field_leBytes .., ?_, ?_, ?_, ?_, ?_, ?_, ?_, ?_, ?_⟩ <;>
    simp only [field_append, leBytes_length, zeros_length, field_leBytes, field_zeros, hlast, Nat.reduceLeDiff, Nat.reduceSub,
      Nat.reducePow, Nat.le_refl, Nat.sub_self]

theorem statusCode_lt (st : Status) : statusCode st < 256 := by cases st <;> decide

theorem subCode_lt (sub : Sub) : subCode sub < 256 := by
  cases sub with
  | lookup f o => cases f <;> cases o <;> decide
  | memory o => cases o <;> decide
  | _ => decide

/-! ## The completion unit's ask (R111, R112) -/

theorem ringOpen_iff (s : State) (c : CqId) :
    ringOpen s c = true ↔ (s.ring c).state = .active ∧ ((s.ring c).tail + 1) % (s.ring c).size ≠ (s.ring c).head
      ∧ ∀ x ∈ s.occupied, x.ring = c → x.inFlight = false := by
  simp [ringOpen, Ring.hasRoom, and_assoc]

/-- The oldest entry whose ring is open, behind entries whose rings are not. -/
theorem oldestReady_append {s : State} {o : Occupied} {before after : List Occupied} (hl : s.occupied = before ++ o :: after)
    (hb : ∀ p ∈ before, ¬ ringOpen s p.ring = true) (ho : ringOpen s o.ring = true) : oldestReady s = some o := by
  rw [oldestReady, List.find?_eq_some_iff_append]
  exact ⟨ho, before, after, hl, fun p hp => by simpa using hb p hp⟩

theorem completionAsk_some {s : State} {o : Occupied} (hg : s.graceTimer ≠ .expired) (h : oldestReady s = some o) :
    completionAsk s = some ⟨.completion o.ring, .write, (s.ring o.ring).base + 32 * (s.ring o.ring).tail, 32,
      entryBytes o.entry (s.ring o.ring).phase⟩ := by
  simp [completionAsk, hg, h]

theorem completionAsk_none {s : State} (h : s.graceTimer = .expired ∨ oldestReady s = none) : completionAsk s = none := by
  unfold completionAsk
  rcases h with h | h
  · simp [h]
  · simp [h]

/-! ## The admin unit's ask (R131, R151, R158) -/

theorem firstWaitingWrite_append {before after : List AdminWrite} {w : AdminWrite} (hb : ∀ v ∈ before, v.progress ≠ .waiting)
    (hw : w.progress = .waiting) (k : Nat) :
    firstWaitingWrite k (before ++ w :: after) = some (k + before.length, w) := by
  induction before generalizing k with
  | nil => simp [firstWaitingWrite, hw]
  | cons v vs ih =>
    obtain ⟨hv, hvs⟩ := List.forall_mem_cons.mp hb
    rw [List.cons_append, firstWaitingWrite, if_neg hv, ih hvs, List.length_cons]
    congr 2
    omega

theorem firstWaitingWrite_none {ws : List AdminWrite} (h : ∀ w ∈ ws, w.progress ≠ .waiting) (k : Nat) :
    firstWaitingWrite k ws = none := by
  induction ws generalizing k with
  | nil => rfl
  | cons w ws ih =>
    obtain ⟨hw, hws⟩ := List.forall_mem_cons.mp h
    rw [firstWaitingWrite, if_neg hw, ih hws]

theorem adminAsk_rootRead {s : State} (h : s.rootRead = .waiting) :
    adminAsk s = some ⟨.rootRead, .read, s.rootInUse.toNat, 64, []⟩ := by
  simp [adminAsk, h]

theorem adminAsk_record {s : State} {i : Nat} (hr : s.rootRead ≠ .waiting) (h : s.admin = .fetching i false) :
    adminAsk s = some ⟨.adminRecord, .read, s.adminRing.base + 64 * i, 64, []⟩ := by
  simp [adminAsk, hr, h]

theorem adminAsk_write {s : State} {b : List Byte} {before after : List AdminWrite} {w : AdminWrite} (hr : s.rootRead ≠ .waiting)
    (h : s.admin = .executing b (.writing (before ++ w :: after) none)) (hb : ∀ v ∈ before, v.progress ≠ .waiting)
    (hw : w.progress = .waiting) : adminAsk s = some ⟨.adminWrite before.length, .write, w.address, w.data.length, w.data⟩ := by
  simp [adminAsk, hr, h, firstWaitingWrite_append hb hw]

theorem adminAsk_none {s : State} (hr : s.rootRead ≠ .waiting) (hf : ∀ i, s.admin ≠ .fetching i false)
    (hw : ∀ b ws, s.admin = .executing b (.writing ws none) → ∀ w ∈ ws, w.progress ≠ .waiting) : adminAsk s = none := by
  unfold adminAsk
  rw [if_neg hr]
  split
  · next i h => exact absurd h (hf i)
  · next b ws h => rw [firstWaitingWrite_none (hw b ws h)]
  · rfl

/-! ## The fetch unit's and the mover's asks (R61, R13, R14) -/

theorem fetchAsk_waiting {s : State} {f : Fetch} (h : s.fetch = some f) (hi : f.issued = false) :
    fetchAsk s = some ⟨.fetch, .read, (s.queue f.queue).ringBase + 64 * f.index, 64, []⟩ := by
  simp [fetchAsk, h, hi]

theorem fetchAsk_none {s : State} (h : ∀ f, s.fetch = some f → f.issued = true) : fetchAsk s = none := by
  unfold fetchAsk
  split
  · next f hf => rw [if_pos (h f hf)]
  · rfl

theorem firstWaiting_append {before after : List SegRequest} {q : SegRequest} (hb : ∀ p ∈ before, p.progress ≠ .waiting)
    (hq : q.progress = .waiting) (k : Nat) : firstWaiting k (before ++ q :: after) = some (k + before.length, q) := by
  induction before generalizing k with
  | nil => simp [firstWaiting, hq]
  | cons p ps ih =>
    obtain ⟨hp, hps⟩ := List.forall_mem_cons.mp hb
    rw [List.cons_append, firstWaiting, if_neg hp, ih hps, List.length_cons]
    congr 2
    omega

theorem firstWaiting_none {l : List SegRequest} (h : ∀ p ∈ l, p.progress ≠ .waiting) (k : Nat) : firstWaiting k l = none := by
  induction l generalizing k with
  | nil => rfl
  | cons p ps ih =>
    obtain ⟨hp, hps⟩ := List.forall_mem_cons.mp h
    rw [firstWaiting, if_neg hp, ih hps]

theorem moverAsk_idle {s : State} (h : s.segment = none) : moverAsk s = none := by simp [moverAsk, h]

theorem moverAsk_settling {s : State} {g : Segment} (h : s.segment = some g) (hp : g.phase = .settling) : moverAsk s = none := by
  simp [moverAsk, h, hp]

theorem moverAsk_none {s : State} {g : Segment} (h : s.segment = some g) (hn : ∀ p ∈ g.requests, p.progress ≠ .waiting) :
    moverAsk s = none := by
  simp [moverAsk, h, firstWaiting_none hn]

theorem moverAsk_some {s : State} {g : Segment} {before after : List SegRequest} {q : SegRequest} (h : s.segment = some g)
    (hp : g.phase ≠ .settling) (hl : g.requests = before ++ q :: after) (hb : ∀ p ∈ before, p.progress ≠ .waiting)
    (hq : q.progress = .waiting) :
    moverAsk s = some ⟨.mover before.length, q.kind, q.system, q.length, if q.kind = .write then q.data else []⟩ := by
  cases hk : q.kind <;> simp [moverAsk, h, hp, hl, firstWaiting_append hb hq, hk]

/-! ## The next grant (R93, R94) -/

/-- The fixed order, as the first of four asks. -/
theorem nextGrant_eq {s : State} (h : freeTags s ≠ 0) :
    nextGrant s = (completionAsk s).or ((adminAsk s).or ((fetchAsk s).or (if 5 ≤ freeTags s then moverAsk s else none))) := by
  unfold nextGrant
  rw [if_neg h]
  cases completionAsk s with
  | some a => rfl
  | none =>
    cases adminAsk s with
    | some a => rfl
    | none => cases fetchAsk s <;> rfl

theorem nextGrant_mover {s : State} (h : freeTags s ≠ 0) (hc : completionAsk s = none) (ha : adminAsk s = none)
    (hf : fetchAsk s = none) : nextGrant s = if 5 ≤ freeTags s then moverAsk s else none := by
  rw [nextGrant_eq h, hc, ha, hf]
  rfl

/-- Without an ask of the mover, and of the others none, nobody is served. -/
theorem nextGrant_none {s : State} (h : freeTags s ≠ 0) (hc : completionAsk s = none) (ha : adminAsk s = none)
    (hf : fetchAsk s = none) (hm : moverAsk s = none) : nextGrant s = none := by
  rw [nextGrant_mover h hc ha hf, hm, ite_self]

/-- Settles O33: the next grant is the first of the four asks in R94's order (`nextGrant_eq`), and each ask is its client's rule. -/
theorem clientsAskInTheFixedOrder : Obligations.ClientsAskInTheFixedOrder := by
  refine ⟨?_, ?_, ?_⟩
  · intro e phase b
    obtain ⟨h0, h1, h2, h3, h4, h6, h8, h12, h16, h24⟩ := entryBytes_fields e phase
    refine ⟨by simp [b, entryBytes], ?_, ?_, h2, ?_, h4, h6, h8, h12, h16, h24⟩
    · exact h0.trans (Nat.mod_eq_of_lt (statusCode_lt _))
    · exact h1.trans (Nat.mod_eq_of_lt (subCode_lt _))
    · rw [h3]
      cases phase <;> rfl
  · exact ⟨rfl, rfl, rfl, rfl, rfl, rfl, fun o => by cases o <;> rfl, rfl, rfl, rfl, rfl, rfl⟩
  · intro s hfree
    refine ⟨fun o hg ho => ?_, fun hnone => ⟨fun hr => ?_, fun i hr ha => ?_, fun b before w after hr ha hb hw => ?_,
      fun hr hnf hnw => ?_⟩, fun o before after hl hb hact hroom hfly => ?_⟩
    · rw [nextGrant_eq hfree, completionAsk_some hg ho, Option.some_or]
    · rw [nextGrant_eq hfree, completionAsk_none hnone, Option.none_or, adminAsk_rootRead hr, Option.some_or]
    · rw [nextGrant_eq hfree, completionAsk_none hnone, Option.none_or, adminAsk_record hr ha, Option.some_or]
    · rw [nextGrant_eq hfree, completionAsk_none hnone, Option.none_or, adminAsk_write hr ha hb hw, Option.some_or]
    · have hc : completionAsk s = none := completionAsk_none hnone
      have ha : adminAsk s = none := adminAsk_none hr hnf hnw
      refine ⟨fun f hf hi => ?_, fun hissued => ?_⟩
      · rw [nextGrant_eq hfree, hc, Option.none_or, ha, Option.none_or, fetchAsk_waiting hf hi, Option.some_or]
      · have hf : fetchAsk s = none := fetchAsk_none hissued
        have hidle := nextGrant_none hfree hc ha hf
        refine ⟨fun h5 => ?_, fun g hg hp => hidle (moverAsk_settling hg hp), fun g hg hn => hidle (moverAsk_none hg hn),
          fun hg => hidle (moverAsk_idle hg), fun g before q after h5 hg hp hl hb hq => ?_⟩
        · rw [nextGrant_mover hfree hc ha hf, if_neg (by omega)]
        · rw [nextGrant_mover hfree hc ha hf, if_pos h5, moverAsk_some hg hp hl hb hq]
    · exact oldestReady_append hl (fun p hp hopen => hb p hp ((ringOpen_iff s p.ring).mp hopen))
        ((ringOpen_iff s o.ring).mpr ⟨hact, hroom, hfly⟩)

end Sys2Proof.Machine
end

section
/-! PROOF. A POST is checked by the queue it names: the statement PostIsCheckedByItsQueue. -/

namespace Sys2Proof.Machine

/-! ## The fields of POST and CQ_ACK (R178) -/

section
variable (n r : BitVec 8) (new : BitVec 16)

@[simp] theorem portIndex_append : portIndex (n ++ r ++ new) = new.toNat := by
  rw [portIndex, BitVec.extractLsb'_append_eq_right]

@[simp] theorem portReserved_append : portReserved (n ++ r ++ new) = r.toNat := by
  rw [portReserved, BitVec.extractLsb'_append_eq_of_le (by decide), BitVec.extractLsb'_append_eq_right]

@[simp] theorem portNumber_append : portNumber (n ++ r ++ new) = n.toNat := by
  rw [portNumber, BitVec.extractLsb'_append_eq_of_le (by decide), BitVec.extractLsb'_append_eq_left]

end

/-! ## Checks 2 and 3 of R53 and R130 -/

/-- The posted count of a ring whose head lies inside it, as the integers count it (R50). -/
theorem postedCount_eq_emod {size head : Nat} (tail : Nat) (h : head < size) :
    (postedCount size head tail : Int) = ((tail : Int) - head) % size := by
  have hsub : ((tail + size - head : Nat) : Int) = (tail : Int) - head + size := by omega
  rw [postedCount, if_neg (by omega), Int.natCast_emod, hsub, Int.add_emod_right]

theorem tailAccepted_iff {size head : Nat} (tail new : Nat) (h : head < size) :
    tailAccepted size head tail new = true ↔
      new < size ∧ ((tail : Int) - head) % size ≤ ((new : Int) - head) % size := by
  rw [← postedCount_eq_emod tail h, ← postedCount_eq_emod new h]
  simp [tailAccepted]

/-! ## A POST for a work queue and for queue 0 (R53, R54, R130, R134) -/

theorem postToQueue_accepted {q : WqId} {new : Nat} {s : State} (h0 : (s.queue q).ringSize ≠ 0)
    (h : tailAccepted (s.queue q).ringSize (s.queue q).head (s.queue q).tail new = true) :
    postToQueue q new s = s.setQueue q { s.queue q with tail := new } :=
  if_pos ⟨h0, h⟩

theorem postToQueue_rejected {q : WqId} {new : Nat} {s : State} (h : (s.queue q).ringSize = 0
      ∨ ¬ tailAccepted (s.queue q).ringSize (s.queue q).head (s.queue q).tail new = true) :
    postToQueue q new s = rejectPost s :=
  if_neg (not_and_or.mpr (h.imp_left not_not.mpr))

theorem postToAdmin_accepted {new : Nat} {s : State} (he : s.engine = .running)
    (h : tailAccepted s.adminRing.size s.adminRing.head s.adminRing.tail new = true) :
    postToAdmin new s = { s with adminRing := { s.adminRing with tail := new }, admin := endHalt s.admin } :=
  if_pos ⟨he, h⟩

theorem postToAdmin_rejected {new : Nat} {s : State} (h : s.engine ≠ .running
      ∨ ¬ tailAccepted s.adminRing.size s.adminRing.head s.adminRing.tail new = true) :
    postToAdmin new s = rejectPost s :=
  if_neg (not_and_or.mpr h)

/-! ## A write of POST, by the queue it names (R52, R179) -/

theorem writePost_misnamed {n r : BitVec 8} (new : BitVec 16) (s : State) (h : r ≠ 0 ∨ 8 < n.toNat) :
    writePost (n ++ r ++ new) s = rejectPost s := by
  have hr : r.toNat ≠ 0 ↔ r ≠ 0 := not_congr (BitVec.toNat_inj (y := 0))
  rw [writePost, portReserved_append, portNumber_append, if_pos (by rwa [hr])]

theorem writePost_work {n : BitVec 8} {q : WqId} (new : BitVec 16) (s : State) (hn : n.toNat = q.val + 1) :
    writePost (n ++ 0#8 ++ new) s = postToQueue q new.toNat s := by
  have hq : Fin.ofNat 8 (q.val + 1 - 1) = q := Fin.ofNat_val_eq_self q
  rw [writePost, portReserved_append, portNumber_append, portIndex_append, hn, hq, if_neg (by simp), if_neg (by omega)]

theorem writePost_admin (new : BitVec 16) (s : State) : writePost (0#8 ++ 0#8 ++ new) s = postToAdmin new.toNat s := by
  rw [writePost, portReserved_append, portNumber_append, portIndex_append, if_neg (by decide), if_pos (by decide)]

/-- With nothing due and RESET_N high, either row of POST is the write of its register. -/
theorem exec_post {s : State} (h : Ready s) (v : Reg) :
    exec (.postWork v) s = .next (writePost v s) ∧ exec (.postAdmin v) s = .next (writePost v s) := by
  have hw : unlessHeld (writePost v) (settleDue s) = writePost v s := by
    rw [settleDue_of_nothingDue h.2, unlessHeld_high _ h.1]
  exact ⟨congrArg _ hw, congrArg _ hw⟩

/-- Settles O13: the queue named decides which block judges the POST (`writePost_misnamed`, `writePost_work`, `writePost_admin`), and
its verdict is `tailAccepted_iff`. -/
theorem postIsCheckedByItsQueue : Obligations.PostIsCheckedByItsQueue := by
  intro n r new s hready v rejected fits
  obtain ⟨hwork, hadmin⟩ := exec_post hready v
  rw [hwork, hadmin]
  refine ⟨fun hbad => ?_, ?_, ?_⟩
  · have hv : writePost v s = rejected := writePost_misnamed new s hbad
    rw [hv]
    exact ⟨rfl, rfl⟩
  · rintro q hn rfl
    have hv : writePost v s = postToQueue q new.toNat s := writePost_work new s hn
    rw [hv]
    refine ⟨fun h0 => ?_, fun hhead _ => ?_⟩
    · rw [postToQueue_rejected (.inl h0)]
      rfl
    · have hfits := tailAccepted_iff (s.queue q).tail new.toNat hhead
      refine ⟨fun h => ?_, fun h => ?_⟩
      · rw [postToQueue_accepted (by omega) (hfits.mpr h)]
      · rw [postToQueue_rejected (.inr (mt hfits.mp h))]
        rfl
  · rintro rfl rfl
    have hv : writePost v s = postToAdmin new.toNat s := writePost_admin new s
    rw [hv]
    refine ⟨fun he => ?_, fun he hhead _ => ?_⟩
    · rw [postToAdmin_rejected (.inl he)]
      rfl
    · have hfits := tailAccepted_iff s.adminRing.tail new.toNat hhead
      refine ⟨fun h => ?_, fun h => ?_⟩
      · rw [postToAdmin_accepted he (hfits.mpr h)]
        rfl
      · rw [postToAdmin_rejected (.inr (mt hfits.mp h))]
        rfl

end Sys2Proof.Machine
end

section
/-! PROOF. Whom the fetch unit serves, and the issue of its fetch: the statement FetchIssueServesTheHighestCandidate. -/

namespace Sys2Proof.Machine

/-! ## The choice among the candidates (R60, R61) -/

/-- The better of two is the best so far or the next candidate. -/
theorem mem_betterCandidate {s : State} {best : Option WqId} {q b : WqId} (h : b ∈ betterCandidate s best q) :
    b ∈ best ∨ b = q ∧ fetchCandidate s q = true := by
  unfold betterCandidate at h
  split at h
  · next hc =>
    split at h
    · exact .inr ⟨(Option.some.inj h).symm, hc⟩
    · split at h
      · exact .inr ⟨(Option.some.inj h).symm, hc⟩
      · exact .inl h
  · exact .inl h

/-- A candidate takes the place of a best one of lower level. -/
theorem betterCandidate_of_lower {s : State} {q : WqId} {best : Option WqId} (hq : fetchCandidate s q = true)
    (hb : ∀ b ∈ best, (s.queue b).level < (s.queue q).level) : betterCandidate s best q = some q := by
  unfold betterCandidate
  rw [if_pos hq]
  cases best with
  | none => rfl
  | some b => exact if_pos (hb b rfl)

/-- The best of candidates that all stand below a level stands below it. -/
theorem foldl_betterCandidate_lower {s : State} {level : Nat} (l : List WqId) (best : Option WqId)
    (hl : ∀ p ∈ l, fetchCandidate s p = true → (s.queue p).level < level) (hb : ∀ b ∈ best, (s.queue b).level < level) :
    ∀ b ∈ l.foldl (betterCandidate s) best, (s.queue b).level < level := by
  induction l generalizing best with
  | nil => exact hb
  | cons x xs ih =>
    obtain ⟨hx, hxs⟩ := List.forall_mem_cons.mp hl
    refine ih _ hxs fun b h => ?_
    rcases mem_betterCandidate h with hbest | ⟨rfl, hc⟩
    · exact hb b hbest
    · exact hx hc

/-- A best candidate stays the best one where no further candidate has a higher level. -/
theorem foldl_betterCandidate_of_highest {s : State} {q : WqId} (l : List WqId)
    (hl : ∀ p ∈ l, fetchCandidate s p = true → (s.queue p).level ≤ (s.queue q).level) :
    l.foldl (betterCandidate s) (some q) = some q := by
  induction l with
  | nil => rfl
  | cons x xs ih =>
    obtain ⟨hx, hxs⟩ := List.forall_mem_cons.mp hl
    have hstep : betterCandidate s (some q) x = some q := by
      unfold betterCandidate
      split
      · next hc => exact if_neg (Nat.not_lt.mpr (hx hc))
      · rfl
    rw [List.foldl_cons, hstep, ih hxs]

theorem allQueues_ascending : allQueues.Pairwise (· < ·) := by decide

/-- The candidate of highest level, of those the lowest number, is chosen: those before it in number stand below it, and none after it
stands above it (R61). -/
theorem chosenCandidate_eq_some {s : State} {q : WqId} (hq : fetchCandidate s q = true)
    (hbest : ∀ p, fetchCandidate s p = true →
      (s.queue p).level < (s.queue q).level ∨ ((s.queue p).level = (s.queue q).level ∧ q ≤ p)) :
    chosenCandidate s = some q := by
  obtain ⟨before, after, hsplit⟩ := List.append_of_mem (mem_allQueues q)
  have hbefore : ∀ p ∈ before, p < q := by
    obtain ⟨_, _, hcross⟩ := List.pairwise_append.mp (hsplit ▸ allQueues_ascending)
    exact fun p hp => hcross p hp q List.mem_cons_self
  have hlower := foldl_betterCandidate_lower (s := s) (level := (s.queue q).level) before none
    (fun p hp hc => (hbest p hc).resolve_right fun h => absurd (hbefore p hp) (not_lt.mpr h.2)) nofun
  rw [chosenCandidate, hsplit, List.foldl_append, List.foldl_cons, betterCandidate_of_lower hq hlower]
  exact foldl_betterCandidate_of_highest after fun p _ hc => (hbest p hc).elim Nat.le_of_lt fun h => h.1.le

theorem fetchClaim_eq_chosenCandidate {s : State} (hf : s.fetch = none) (hfree : 0 < freeEntries s) :
    fetchClaim s = chosenCandidate s := by
  simp [fetchClaim, hasFree, hf, hfree]

/-! ## The issue (R61, R109) -/

theorem settleClaim_of_not {a : State} (s : State) (h : a.claimDeferred = false) : settleClaim a s = s := by
  simp [settleClaim, h]

theorem settleClaim_of_deferred {a : State} (s : State) (h : a.claimDeferred = true) :
    settleClaim a s = claimFreed { s with claimDeferred := false } := by
  simp [settleClaim, h]

theorem fetchIssue_of_claim {s : State} {q : WqId} (h : fetchClaim s = some q) : fetchIssue s = beginFetch q s := by
  simp [fetchIssue, h]

theorem fetchIssue_of_no_claim {s : State} (h : fetchClaim s = none) : fetchIssue s = settleDeferred s := by
  simp [fetchIssue, h]

/-- The look of a DISABLE QUEUE that needs an entry is not due. -/
theorem lookDue_eq_false {s : State} (h : ∀ b q, s.admin = .executing b (.waitEntry q) → drainNeedsEntry s q = true) :
    lookDue s = false := by
  rw [Bool.eq_false_iff, Ne, lookDue_iff]
  rintro ⟨b, q, hb, hn⟩
  simp [h b q hb] at hn

/-- Settles O32: the claim is the choice `chosenCandidate_eq_some`, whose issue is `beginFetch`; with no candidate there is no claim. -/
theorem fetchIssueServesTheHighestCandidate : Obligations.FetchIssueServesTheHighestCandidate := by
  intro s hlaw hrun hidle hfree hunchecked hwait candidate
  have hcand (p : WqId) : fetchCandidate s p = true ↔ candidate p := by
    rw [fetchCandidate_iff (hlaw.1 p), and_iff_right hrun]
  have hexec : exec .fetchIssue s = .next (fetchIssue s) := by
    have hlook : lookDue s = false := lookDue_eq_false fun b q hb =>
      have ⟨hstate, hdrain⟩ := hwait b q hb
      (drainNeedsEntry_iff s q).mpr ⟨hstate, hdrain, by simp [hrun]⟩
    show Host.Outcome.next (fetchIssue (settleLook (settleRecord s))) = _
    rw [settleRecord_of_none hunchecked, settleLook_of_not hlook]
  rw [hexec]
  constructor
  · intro q c hq hc hbest
    obtain rfl : (s.queue q).ring.getD 0 = c := by rw [hc, Option.getD_some]
    intro base
    have hclaim : fetchClaim s = some q := by
      rw [fetchClaim_eq_chosenCandidate hidle hfree]
      exact chosenCandidate_eq_some ((hcand q).mpr hq) fun p hp => hbest p ((hcand p).mp hp)
    have hissue : fetchIssue s = grantAll (settleClaim s base) := fetchIssue_of_claim hclaim
    refine ⟨fun hd => ⟨_, rfl, ?_⟩, fun hd => ⟨_, rfl, ?_⟩⟩
    · rw [hissue, settleClaim_of_not base hd]
    · rw [hissue, settleClaim_of_deferred base hd]
  · intro hnone
    have hclaim : fetchClaim s = none := by
      rw [← Option.not_isSome_iff_eq_none, fetchClaim_isSome_iff]
      rintro ⟨_, _, p, hp⟩
      exact hnone p ((hcand p).mp hp)
    rw [fetchIssue_of_no_claim hclaim]
    rfl

end Sys2Proof.Machine
end

section
/-! PROOF. The aperture lookup's checks in their order, and the ranges that each record type looks up: the statement
LookupFollowsItsChecks. -/

namespace Sys2Proof.Machine

/-! ## One entry (R76, R79) -/

theorem Aperture.contains_iff (a : Aperture) (address length : Nat) :
    a.contains address length = true ↔ a.valid = true ∧ a.base ≤ address ∧ address + length ≤ a.base + 2 ^ a.exponent := by
  simp [Aperture.contains, and_assoc]

theorem Aperture.denies_iff (a : Aperture) (q : WqId) (address length : Nat) :
    a.denies q address length = true ↔ a.kind = .deny ∧ a.contains address length = true ∧ a.names q = true := by
  simp [Aperture.denies, and_assoc]

theorem Aperture.serves_iff (a : Aperture) (address length : Nat) :
    a.serves address length = true ↔ a.kind ≠ .deny ∧ a.contains address length = true := by
  simp [Aperture.serves]

/-- Only a TRANSLATE entry moves the range. -/
theorem Aperture.systemAddress_eq (a : Aperture) (address : Nat) :
    a.systemAddress address = if a.kind = .translate then a.target + (address - a.base) else address := by
  unfold Aperture.systemAddress
  cases a.kind <;> rfl

/-! ## The table (R78) -/

/-- Check 1 finds an entry that denies. -/
theorem any_denies_iff (s : State) (q : WqId) (address length : Nat) :
    allApertures.any (fun i => (s.aperture i).denies q address length) = true
      ↔ ∃ i, (s.aperture i).denies q address length = true := by
  simp [allApertures]

/-- The chosen entry is the one of lowest index that serves the range. -/
theorem find?_serves_eq_some {s : State} {address length : Nat} {i : ApId} (hi : (s.aperture i).serves address length = true)
    (hlow : ∀ j, j < i → (s.aperture j).serves address length = false) :
    allApertures.find? (fun i => (s.aperture i).serves address length) = some i := by
  rw [allApertures, ← Fin.find?_eq_find?_finRange, Fin.find?_eq_some_iff]
  exact ⟨hi, hlow⟩

theorem lookup_of_denied {s : State} {q : WqId} {address length : Nat} (kind : ReqKind)
    (h : ∃ i, (s.aperture i).denies q address length = true) : lookup s q kind address length = .error .denied :=
  if_pos ((any_denies_iff s q address length).mpr h)

theorem lookup_of_uncovered {s : State} {q : WqId} {address length : Nat} (kind : ReqKind)
    (hd : ¬ ∃ i, (s.aperture i).denies q address length = true)
    (hn : ∀ i, ¬ (s.aperture i).serves address length = true) : lookup s q kind address length = .error .none := by
  have hfind : allApertures.find? (fun i => (s.aperture i).serves address length) = none :=
    List.find?_eq_none.mpr fun i _ => hn i
  rw [lookup, if_neg (mt (any_denies_iff s q address length).mp hd), hfind]

/-- Checks 3 to 5 look at the chosen entry alone. -/
theorem lookup_of_chosen {s : State} {q : WqId} {address length : Nat} {i : ApId} (kind : ReqKind)
    (hd : ¬ ∃ i, (s.aperture i).denies q address length = true) (hi : (s.aperture i).serves address length = true)
    (hlow : ∀ j, j < i → ¬ (s.aperture j).serves address length = true) :
    lookup s q kind address length =
      if (s.aperture i).names q = false then .error .queue
      else if (s.aperture i).grants kind = false then .error .rights
      else .ok ((s.aperture i).systemAddress address) := by
  have hfind := find?_serves_eq_some hi fun j hj => Bool.eq_false_iff.mpr (hlow j hj)
  rw [lookup, if_neg (mt (any_denies_iff s q address length).mp hd), hfind]
  simp only [Bool.not_eq_true']

/-! ## The ranges of a segment (R11, R77) -/

/-- The right that the destination of a record needs: a COMPARE reads it, the others write it (R77). -/
def destRight (r : WorkRecord) : ReqKind := if r.type = typeCompare then .read else .write

theorem destRight_of_compare {r : WorkRecord} (h : r.type = 3) : destRight r = .read := if_pos h

theorem destRight_of_ne_compare {r : WorkRecord} (h : r.type ≠ 3) : destRight r = .write := if_neg h

/-- The lookup of a record's destination range, after the range of its source, if it has one. -/
def lookupDest (s : State) (c : Context) (source : Option OperandRange) :
    Except (LookupFault × Operand × Nat) (Option OperandRange × OperandRange) :=
  let dst := segmentStart c.record.dest c.record.destStride c
  match lookup s c.queue (destRight c.record) dst (segmentLength c) with
  | .error f => .error (f, .dest, dst)
  | .ok y => .ok (source, { engine := dst, system := y, length := segmentLength c })

theorem lookupOperands_of_not_usesSource {c : Context} (s : State) (h : c.record.usesSource = false) :
    lookupOperands s c = lookupDest s c none := by
  rw [lookupOperands, if_neg (Bool.eq_false_iff.mp h)]
  rfl

/-- The source's fault decides before the destination is looked at. -/
theorem lookupOperands_of_usesSource {c : Context} (s : State) (h : c.record.usesSource = true) :
    let src := segmentStart c.record.source c.record.sourceStride c
    lookupOperands s c =
      match lookup s c.queue .read src (segmentLength c) with
      | .error f => .error (f, .source, src)
      | .ok x => lookupDest s c (some { engine := src, system := x, length := segmentLength c }) := by
  intro src
  rw [lookupOperands, if_pos h]
  rfl

/-- Settles O52: the table's checks are `lookup_of_denied`, `lookup_of_uncovered` and `lookup_of_chosen`; which operands a segment
looks up is whether its type uses a source, and for what is `destRight`. -/
theorem lookupFollowsItsChecks : Obligations.LookupFollowsItsChecks := by
  refine ⟨?_, ?_⟩
  · intro s c r n src dst both
    have hboth (hs : r.usesSource = true) : lookupOperands s c = both (destRight r) := by
      rw [lookupOperands_of_usesSource s hs]
      simp only [both, lookupDest]
      cases lookup s c.queue .read src n with
      | error f => rfl
      | ok x => cases lookup s c.queue (destRight r) dst n <;> rfl
    refine ⟨fun ht => ?_, fun ht => ?_, fun ht => ?_⟩
    · rw [← destRight_of_ne_compare (by omega : r.type ≠ 3)]
      exact hboth ((usesSource_iff r).mpr (.inl ht))
    · have hs : r.usesSource = false := by
        rw [Bool.eq_false_iff, Ne, usesSource_iff]
        omega
      have hlookup := lookupOperands_of_not_usesSource s hs
      rw [lookupDest, destRight_of_ne_compare (by omega : r.type ≠ 3)] at hlookup
      exact hlookup
    · rw [← destRight_of_compare ht]
      exact hboth ((usesSource_iff r).mpr (.inr ht))
  · intro s q kind address length inside denied covers
    have hinside (i : ApId) : (s.aperture i).contains address length = true ↔ inside i := (s.aperture i).contains_iff ..
    have hdenied : (∃ i, (s.aperture i).denies q address length = true) ↔ denied :=
      exists_congr fun i => by rw [Aperture.denies_iff, hinside]; rfl
    have hcovers (i : ApId) : (s.aperture i).serves address length = true ↔ covers i := by
      rw [Aperture.serves_iff, hinside]
    refine ⟨fun hd => lookup_of_denied kind (hdenied.mpr hd),
      fun hd hn => lookup_of_uncovered kind (mt hdenied.mp hd) fun i => mt (hcovers i).mp (hn i), ?_⟩
    intro i hd hi hlow a right
    have hchosen := lookup_of_chosen kind (mt hdenied.mp hd) ((hcovers i).mpr hi) fun j hj => mt (hcovers j).mp (hlow j hj)
    have hright : a.grants kind = right := rfl
    rw [hchosen]
    refine ⟨fun hq => if_pos hq, fun hq hr => ?_, fun hq hr => ?_⟩
    · rw [if_neg (by simp [Aperture.names, a, hq]), if_pos (hright.trans hr)]
    · rw [if_neg (by simp [Aperture.names, a, hq]), if_neg (by simp [a, hright, hr]), Aperture.systemAddress_eq]

end Sys2Proof.Machine
end

section
/-! PROOF. Serving the clients, grant by grant, until no client that asks can be served: the statement
GrantsServeEveryClientTheyCan. -/

namespace Sys2Proof.Machine

/-! ## FREE tags (R91, R94) -/

/-- Only the tags are counted. -/
theorem freeTags_of_tags {a b : State} (h : a.tags = b.tags) : freeTags a = freeTags b := by
  simp only [freeTags, State.tag, h]

theorem freeTags_eq_card (s : State) : freeTags s = (Finset.univ.filter fun t : TagId => s.tag t = .free).card := by
  rw [freeTags, allTags, ← List.toFinset_card_of_nodup ((List.nodup_finRange 32).filter _), List.toFinset_filter,
    List.toFinset_finRange]
  simp only [beq_iff_eq]

theorem freeTags_le (s : State) : freeTags s ≤ 32 := by
  rw [freeTags, ← List.length_finRange (n := 32)]
  exact List.length_filter_le ..

/-- A FREE tag that is given another state leaves one FREE tag fewer. -/
theorem freeTags_setTag {s : State} {t : TagId} {g : TagState} (ht : s.tag t = .free) (hg : g ≠ .free) :
    freeTags (s.setTag t g) + 1 = freeTags s := by
  have herase : (Finset.univ.filter fun i : TagId => (s.setTag t g).tag i = .free)
      = (Finset.univ.filter fun i : TagId => s.tag i = .free).erase t := by
    ext i
    by_cases hi : i = t
    · simp [hi, hg]
    · simp [hi, State.setTag_tag_ne]
  rw [freeTags_eq_card, freeTags_eq_card, herase, Finset.card_erase_add_one (by simp [ht])]

theorem lowestFree_eq_some_iff {s : State} {t : TagId} :
    lowestFree s = some t ↔ s.tag t = .free ∧ ∀ j, j < t → s.tag j ≠ .free := by
  rw [lowestFree, allTags, ← Fin.find?_eq_find?_finRange, Fin.find?_eq_some_iff]
  simp

theorem lowestFree_of_freeTags {s : State} (h : freeTags s ≠ 0) : ∃ t, lowestFree s = some t := by
  obtain ⟨t, ht⟩ := List.exists_mem_of_length_pos (Nat.pos_of_ne_zero h)
  rw [← Option.isSome_iff_exists, lowestFree, List.find?_isSome]
  exact ⟨t, List.mem_filter.mp ht⟩

/-! ## One grant (R93, R95) -/

theorem nextGrant_of_no_tag {s : State} (h : freeTags s = 0) : nextGrant s = none := if_pos h

theorem freeTags_of_nextGrant {s : State} {a : Ask} (h : nextGrant s = some a) : freeTags s ≠ 0 := fun h0 => by
  rw [nextGrant_of_no_tag h0] at h
  cases h

/-- A grant is made exactly when a client that asks can be served. -/
theorem grantOne_eq_none_iff (s : State) : grantOne s = none ↔ nextGrant s = none := by
  cases h : nextGrant s with
  | none => simp [grantOne, h]
  | some a =>
    obtain ⟨t, ht⟩ := lowestFree_of_freeTags (freeTags_of_nextGrant h)
    simp [grantOne, h, ht]

/-- The issue of a request uses up its tag. -/
theorem freeTags_issue {s : State} {t : TagId} (a : Ask) (ht : s.tag t = .free) : freeTags (issue t a s) + 1 = freeTags s := by
  rw [issue, freeTags_of_tags (markIssued_port _ _).1]
  exact freeTags_setTag ht (by simp)

theorem freeTags_of_grantOne {s s' : State} (h : grantOne s = some s') : freeTags s' + 1 = freeTags s := by
  unfold grantOne at h
  split at h
  · next a t _ ht =>
    cases h
    exact freeTags_issue a (lowestFree_eq_some_iff.mp ht).1
  · cases h

/-! ## Grants until none can be made (R94) -/

theorem grantLoop_of_none {s : State} (n : Nat) (h : grantOne s = none) : grantLoop n s = s := by
  cases n with
  | zero => rfl
  | succ n => rw [grantLoop, h]

/-- Each grant uses up a tag, so as many turns as there are FREE tags serve all that can be served. -/
theorem nextGrant_grantLoop (n : Nat) {s : State} (h : freeTags s ≤ n) : nextGrant (grantLoop n s) = none := by
  induction n generalizing s with
  | zero => exact nextGrant_of_no_tag (Nat.le_zero.mp h)
  | succ n ih =>
    cases hone : grantOne s with
    | none => rwa [grantLoop_of_none _ hone, ← grantOne_eq_none_iff]
    | some s' =>
      rw [grantLoop, hone]
      exact ih (by have := freeTags_of_grantOne hone; omega)

/-- A turn more than there are FREE tags does nothing. -/
theorem grantLoop_succ (n : Nat) {s : State} (h : freeTags s ≤ n) : grantLoop (n + 1) s = grantLoop n s := by
  induction n generalizing s with
  | zero => exact grantLoop_of_none 1 ((grantOne_eq_none_iff s).mpr (nextGrant_of_no_tag (Nat.le_zero.mp h)))
  | succ n ih =>
    rw [grantLoop, grantLoop]
    cases hone : grantOne s with
    | none => rfl
    | some s' => exact ih (by have := freeTags_of_grantOne hone; omega)

theorem nextGrant_grantAll (s : State) : nextGrant (grantAll s) = none := nextGrant_grantLoop 32 (freeTags_le s)

theorem grantAll_of_none {s : State} (h : nextGrant s = none) : grantAll s = s :=
  grantLoop_of_none 32 ((grantOne_eq_none_iff s).mpr h)

/-- The next client is served, and the rest after it. -/
theorem grantAll_of_grantOne {s s' : State} (h : grantOne s = some s') : grantAll s = grantAll s' := by
  have hused := freeTags_of_grantOne h
  have hmax := freeTags_le s
  calc grantAll s = grantLoop 31 s' := by rw [grantAll, grantLoop, h]
    _ = grantAll s' := (grantLoop_succ 31 (by omega)).symm

theorem grantAll_of_nextGrant {s : State} {a : Ask} {t : TagId} (h : nextGrant s = some a) (ht : lowestFree s = some t) :
    grantAll s = grantAll (issue t a s) :=
  grantAll_of_grantOne (by simp only [grantOne, h, ht])

/-! ## The owner's note (R95) -/

/-- The entry in flight is the ring's first. -/
theorem markInFlight_append {c : CqId} {before after : List Occupied} {o : Occupied} (hb : ∀ p ∈ before, p.ring ≠ c)
    (ho : o.ring = c) : markInFlight c (before ++ o :: after) = before ++ { o with inFlight := true } :: after := by
  induction before with
  | nil => exact if_pos ho
  | cons p ps ih =>
    obtain ⟨hp, hps⟩ := List.forall_mem_cons.mp hb
    rw [List.cons_append, markInFlight, if_neg hp, ih hps, List.cons_append]

theorem markIssued_adminRecord {s : State} {i : Nat} {out : Bool} (h : s.admin = .fetching i out) :
    markIssued .adminRecord s = { s with admin := .fetching i true } := by
  simp only [markIssued, h]

theorem markIssued_adminWrite {s : State} {b : List Byte} {ws : List AdminWrite} {f : Option WriteFailure} (k : Nat)
    (h : s.admin = .executing b (.writing ws f)) :
    markIssued (.adminWrite k) s
      = { s with admin := .executing b (.writing (ws.modify k fun w => { w with progress := .issued }) f) } := by
  simp only [markIssued, h]

theorem markIssued_fetch {s : State} {f : Fetch} (h : s.fetch = some f) :
    markIssued .fetch s = { s with fetch := some { f with issued := true } } := by
  simp only [markIssued, h]

theorem markIssued_mover {s : State} {g : Segment} (k : Nat) (h : s.segment = some g) :
    markIssued (.mover k) s
      = { s with segment := some { g with requests := g.requests.modify k fun q => { q with progress := .issued } } } := by
  simp only [markIssued, h]

/-! ## The mover's reserve (R93) -/

theorem completionAsk_owner {s : State} {a : Ask} (h : completionAsk s = some a) : ∃ c, a.owner = .completion c := by
  unfold completionAsk at h
  split at h
  · cases h
  · split at h
    · cases h
    · cases h
      exact ⟨_, rfl⟩

theorem adminAsk_owner {s : State} {a : Ask} (h : adminAsk s = some a) :
    a.owner = .rootRead ∨ a.owner = .adminRecord ∨ ∃ k, a.owner = .adminWrite k := by
  unfold adminAsk at h
  split at h
  · cases h
    exact .inl rfl
  · split at h
    · cases h
      exact .inr (.inl rfl)
    · split at h
      · cases h
        exact .inr (.inr ⟨_, rfl⟩)
      · cases h
    · cases h

theorem fetchAsk_owner {s : State} {a : Ask} (h : fetchAsk s = some a) : a.owner = .fetch := by
  unfold fetchAsk at h
  split at h
  · split at h
    · cases h
    · cases h
      rfl
  · cases h

/-- The mover is served only while five tags are FREE. -/
theorem freeTags_of_nextGrant_mover {s : State} {a : Ask} {k : Nat} (h : nextGrant s = some a) (ho : a.owner = .mover k) :
    5 ≤ freeTags s := by
  rw [nextGrant_eq (freeTags_of_nextGrant h)] at h
  simp only [Option.or_eq_some_iff] at h
  rcases h with hc | ⟨_, ha | ⟨_, hf | ⟨_, hm⟩⟩⟩
  · obtain ⟨c, hown⟩ := completionAsk_owner hc
    simp [hown] at ho
  · rcases adminAsk_owner ha with hown | hown | ⟨j, hown⟩ <;> simp [hown] at ho
  · simp [fetchAsk_owner hf] at ho
  · split at hm
    · assumption
    · cases hm

/-! ## The statement -/

/-- Settles O34: serving all is one grant after another (`grantAll_of_nextGrant`) until none can be made (`nextGrant_grantAll`); what
each owner notes is `markIssued`, and the reserve is `freeTags_of_nextGrant_mover`. -/
theorem grantsServeEveryClientTheyCan : Obligations.GrantsServeEveryClientTheyCan := by
  refine ⟨fun s => ⟨grantAll_onlyIssues s, nextGrant_grantAll s, grantAll_of_none, nextGrant_of_no_tag⟩, ?_⟩
  intro s a g ha hg hlow out
  have hserve : grantAll s = grantAll (markIssued a.owner out) :=
    grantAll_of_nextGrant ha (lowestFree_eq_some_iff.mpr ⟨hg, hlow⟩)
  refine ⟨fun c before o after ho hl hc hb => ?_, fun ho => ?_, fun i ho hi => ?_, fun k b ws ho hw => ?_,
    fun f ho hf => ?_, fun k w ho hw => ⟨?_, ?_⟩⟩
  · rw [hserve, ho, markIssued, ← markInFlight_append hb hc, ← hl]
    rfl
  · rw [hserve, ho, markIssued]
  · rw [hserve, ho, markIssued_adminRecord (s := out) hi]
  · rw [hserve, ho, markIssued_adminWrite (s := out) k hw]
  · rw [hserve, ho, markIssued_fetch (s := out) hf]
  · have hfive := freeTags_of_nextGrant_mover ha ho
    have hused : freeTags out + 1 = freeTags s := freeTags_setTag hg (by simp)
    omega
  · rw [hserve, ho, markIssued_mover (s := out) k hw]

end Sys2Proof.Machine
end

section
/-! PROOF. The memory port's answers by the state of the tag they name, and its timeouts (R90, R98, R99, R102): the statements
LateResponseFreesItsTag, StrayResponseIsOnlyCounted, MismatchedAnswersAreErrors and TimeoutMakesTheTagStale. -/

namespace Sys2Proof.Machine

/-! ## A response takes effect by its tag's state (R90) -/

/-- The tag field of a tag's number names that tag. -/
theorem tagField_names (tg : TagId) : ∃ h : (tagField tg).toNat < 32, (⟨(tagField tg).toNat, h⟩ : TagId) = tg :=
  ⟨by rw [tagField_toNat]; exact tg.isLt, Fin.ext (tagField_toNat tg)⟩

theorem portTakes_free {tg : TagId} {s : State} (r : Result) (h : s.tag tg = .free) :
    portTakes (tagField tg) r s = takeStray s := by
  obtain ⟨hlt, htg⟩ := tagField_names tg
  simp only [portTakes, hlt, dite_true, htg, h]

theorem portTakes_stale {tg : TagId} {s : State} (r : Result) (h : s.tag tg = .stale) :
    portTakes (tagField tg) r s = takeLate tg s := by
  obtain ⟨hlt, htg⟩ := tagField_names tg
  simp only [portTakes, hlt, dite_true, htg, h]

theorem portTakes_no_tag {v : BitVec 8} {s : State} (r : Result) (h : 31 < v.toNat) : portTakes v r s = takeStray s :=
  dif_neg (by omega)

/-- A response that finds the machine ready is taken by the port as it stands (R180). -/
theorem takeResponse_ready {s : State} (v : BitVec 8) (r : Result) (h : Ready s) : takeResponse v r s = portTakes v r s := by
  rw [takeResponse, settleDue_of_nothingDue h.2, unlessHeld_high _ h.1]

/-- Answers that mean the same for the tag's request have the same effect. -/
theorem takeResponse_congr {tg : TagId} {o : Owner} {kind : ReqKind} {ad n tm : Nat} {s : State} {r r' : Result} (hr : Ready s)
    (ht : s.tag tg = .inUse o kind ad n tm) (h : resolutionOf kind n r = resolutionOf kind n r') :
    takeResponse (tagField tg) r s = takeResponse (tagField tg) r' s := by
  rw [takeResponse_inUse r hr ht, takeResponse_inUse r' hr ht, h]

/-! ## What no owner's answer and no stop touches -/

/-- The memory port's own state, the sticky flags, and the counts of all but the entries dropped at a stop (R125). -/
structure PortPart where
  tags : Vector TagState 32
  requestTimeout : Nat
  flags : StickyFlags
  requestTimeouts : Nat
  lateResponses : Nat
  strayResponses : Nat
  rejectedPosts : Nat
  rejectedAcks : Nat

/-- That part of a host part. -/
def HostPart.port (h : HostPart) : PortPart :=
  { tags := h.tags, requestTimeout := h.requestTimeout, flags := h.flags
    requestTimeouts := h.counters.requestTimeouts, lateResponses := h.counters.lateResponses
    strayResponses := h.counters.strayResponses, rejectedPosts := h.counters.rejectedPosts
    rejectedAcks := h.counters.rejectedAcks }

theorem ringBroken_hostPart (c : CqId) (s : State) : (ringBroken c s).hostPart = s.hostPart := by
  unfold ringBroken
  split
  · rfl
  · exact claimFreed_hostPart _

theorem entryWritten_hostPart (c : CqId) (s : State) : (entryWritten c s).hostPart = s.hostPart := by
  unfold entryWritten
  split
  · rfl
  · exact claimFreed_hostPart _

theorem fetchFailed_hostPart (f : Fetch) (timeout : Bool) (s : State) : (fetchFailed f timeout s).hostPart = s.hostPart := by
  unfold fetchFailed
  dsimp only
  split_ifs
  · exact claimFreed_hostPart _
  · exact claimFreed_hostPart _
  · rw [selectOnFree_hostPart, place_hostPart]
    rfl

theorem fetchTakes_hostPart (r : Resolution) (s : State) : (fetchTakes r s).hostPart = s.hostPart := by
  unfold fetchTakes
  split
  · rfl
  · next f _ =>
    cases r with
    | data b => exact claimFreed_hostPart _
    | timeout => exact fetchFailed_hostPart f true s
    | ack => exact fetchFailed_hostPart f false s
    | error => exact fetchFailed_hostPart f false s

theorem adminWriteTakes_hostPart (k : Nat) (r : Resolution) (s : State) : (adminWriteTakes k r s).hostPart = s.hostPart := by
  unfold adminWriteTakes
  split
  · dsimp only
    split
    · rw [selectOnFree_hostPart]
      split <;> exact completeAdmin_hostPart ..
    · rfl
  · rfl

/-- The record's data moves the admin ring's head, which is no part of the port. -/
theorem adminRecordTakes_port (r : Resolution) (s : State) : (adminRecordTakes r s).hostPart.port = s.hostPart.port := by
  have hhalt (i : Nat) (e : Entry) :
      (selectOnFree s (place .adminRecord 0 e false false { s with admin := .halted i })).hostPart.port = s.hostPart.port := by
    rw [selectOnFree_hostPart, place_hostPart]
    rfl
  unfold adminRecordTakes
  split
  · cases r with
    | data b => rfl
    | ack => exact hhalt _ _
    | error => exact hhalt _ _
    | timeout => exact hhalt _ _
  · rfl

theorem rootResolved_port (r : Resolution) (s : State) : (rootResolved r s).hostPart.port = s.hostPart.port := by
  unfold rootResolved
  split
  · dsimp only
    split
    · split
      · split
        · rw [select_hostPart]
          rfl
        · rfl
      · rfl
    · split <;> rfl
  · rfl

/-- An owner that takes a resolution leaves the port alone (R96 to R98). -/
theorem resolve_port (o : Owner) (r : Resolution) (s : State) : (resolve o r s).hostPart.port = s.hostPart.port := by
  cases o with
  | completion c =>
    cases r with
    | ack => exact congrArg HostPart.port (entryWritten_hostPart c s)
    | data b => exact congrArg HostPart.port (entryWritten_hostPart c s)
    | error => exact congrArg HostPart.port (ringBroken_hostPart c s)
    | timeout => exact congrArg HostPart.port (ringBroken_hostPart c s)
  | adminRecord => exact adminRecordTakes_port r s
  | rootRead => exact rootResolved_port r s
  | adminWrite k => exact congrArg HostPart.port (adminWriteTakes_hostPart k r s)
  | fetch => exact congrArg HostPart.port (fetchTakes_hostPart r s)
  | mover k => exact congrArg HostPart.port (moverTakes_hostPart k r s)

theorem enterStarting_port (s : State) : (enterStarting s).hostPart.port = s.hostPart.port := by
  unfold enterStarting
  dsimp only
  split <;> rfl

theorem reachStopped_port (s : State) : (reachStopped s).hostPart.port = s.hostPart.port := by
  unfold reachStopped
  extract_lets _ t
  have hstopped : t.hostPart.port = s.hostPart.port := rfl
  rw [← hstopped]
  split
  · exact enterStarting_port t
  · rfl

/-- A stop that goes on leaves the port alone (R164, R165). -/
theorem stopProgress_port (s : State) : (stopProgress s).hostPart.port = s.hostPart.port := by
  unfold stopProgress
  split
  · extract_lets t
    have htimer : t.hostPart.port = s.hostPart.port := by
      show (if _ then _ else _ : State).hostPart.port = _
      split <;> rfl
    rw [← htimer]
    clear_value t
    split
    · rfl
    · split
      · exact reachStopped_port t
      · rfl
    · split
      · rfl
      · exact reachStopped_port (dropOccupied t)
  · rfl

/-! ## The statements -/

/-- Settles O45: the response is taken on a STALE tag (`portTakes_stale`), whose effect is `takeLate`. -/
theorem lateResponseFreesItsTag : Obligations.LateResponseFreesItsTag := by
  intro tg r s hr ht
  refine ⟨takeLate tg s, ?_, rfl⟩
  show Host.Outcome.next (takeResponse (tagField tg) r s) = _
  rw [takeResponse_ready _ _ hr, portTakes_stale r ht]

/-- Settles O46: a number that names no tag, or a FREE one, brings `takeStray` and nothing more. -/
theorem strayResponseIsOnlyCounted : Obligations.StrayResponseIsOnlyCounted := by
  intro v r s hr hv
  have hstray : portTakes v r s = takeStray s := by
    rcases hv with hv | ⟨tg, rfl, ht⟩
    · exact portTakes_no_tag r hv
    · exact portTakes_free r ht
  show Host.Outcome.next (takeResponse v r s) = _
  rw [takeResponse_ready _ _ hr, hstray]
  rfl

/-- Settles O47: a mismatched answer means ERROR for its tag's request, and every response row is `takeResponse`. -/
theorem mismatchedAnswersAreErrors : Obligations.MismatchedAnswersAreErrors := by
  intro tg o ad n tm s
  refine ⟨fun b hr ht => ?_, fun hr ht => ?_, fun v => ⟨rfl, rfl, rfl, fun b => rfl⟩⟩
  · exact congrArg Host.Outcome.next (takeResponse_congr hr ht rfl)
  · exact congrArg Host.Outcome.next (takeResponse_congr hr ht rfl)

/-- Settles O48: the port's part is left alone by the owner's answer (`resolve_port`) and by the stop (`stopProgress_port`), and the
grants at the end only issue. -/
theorem timeoutMakesTheTagStale : Obligations.TimeoutMakesTheTagStale := by
  intro tg o kind ad n tm s hd ht
  let base : State := stopProgress (resolve o .timeout (handed tg .timeout s))
  have hexec : exec (.requestTimeout tg) s = .next (grantAll base) := by
    show Host.Outcome.next (takeTimeout tg (settleDue s)) = _
    rw [settleDue_of_nothingDue hd, takeTimeout_inUse ht]
    rfl
  have hport : base.hostPart.port = (handed tg .timeout s).hostPart.port := (stopProgress_port _).trans (resolve_port ..)
  injection hport with htags htimeout hflags htimeouts hlate hstray hposts hacks
  have htag (g : TagId) : base.tag g = (s.setTag tg .stale).tag g := congrArg (fun v : Vector TagState 32 => v[g]) htags
  have hissues : OnlyIssues base (grantAll base) := grantAll_onlyIssues base
  obtain ⟨-, -, -, -, -, hgflags, -, -, -, -, -, hgcounters, -⟩ := hissues.fields
  refine ⟨grantAll base, hexec, ?_, ?_, ?_, ?_, ?_, ?_, ?_, fun g hg => ?_⟩
  · rcases hissues.2.2 tg with h | ⟨hfree, _⟩
    · rw [h, htag, State.setTag_tag_self]
    · rw [htag, State.setTag_tag_self] at hfree
      cases hfree
  · rw [hgcounters]; exact htimeouts
  · rw [hgcounters]; exact hlate
  · rw [hgcounters]; exact hstray
  · rw [hgcounters]; exact hposts
  · rw [hgcounters]; exact hacks
  · rw [hgflags]; exact hflags
  · have hsame : base.tag g = s.tag g := by rw [htag, State.setTag_tag_ne _ _ _ _ hg]
    have htm : base.requestTimeout = s.requestTimeout := htimeout
    rw [← hsame, ← htm]
    exact hissues.2.2 g

end Sys2Proof.Machine
end

section
/-! PROOF. What the scheduler does, as one principle: a law that ends, starts, resumes, preemptions and formed segments keep is kept
by selection, the claims of a freed entry and the boundary rule. -/

namespace Sys2Proof.Machine

/-- Selection starts a record only on a free entry, and of an eligible queue (R28, R30). -/
theorem hasFree_of_choose {s : State} {q : WqId} (h : choose s = .start q) : hasFree s = true := by
  by_contra hf
  have he : eligibleLevel s = 0 := by simp [eligibleLevel, hf]
  unfold choose at h
  dsimp only at h
  rw [he, if_neg (Nat.not_lt_zero _)] at h
  split at h <;> cases h

theorem hasFree_of_preemptor {s : State} {q : WqId} (h : preemptor s = some q) : hasFree s = true := by
  by_contra hf
  simp [preemptor, eligibleLevel, hf] at h

/-- `s` with its top context resumed, before the mover forms its segment (R39). -/
def resumed (c : Context) (rest : List Context) (s : State) : State :=
  { s.setQueue c.queue { s.queue c.queue with state := .running } with
    stack := rest, active := some c, currentLevel := c.level }

/-- A law that every single act of the scheduler keeps. -/
structure SchedulerKeeps (P : State → Prop) : Prop where
  claims : ∀ {s} (a : Bool) (n : Nat), P s → P { s with claimDeferred := a, claimTurn := n }
  level : ∀ {s} (n : Nat), P s → P { s with currentLevel := n }
  advance : ∀ {s c} (n : Nat), P s → s.active = some c → P (advanced c n s)
  segment : ∀ {s c} (g : Segment), P s → s.active = some c → P { s with segment := some g }
  ends : ∀ {s c} (st : Status) (sub : Sub) (p d : Nat), P s → s.active = some c → P (endActive st sub p d s)
  start : ∀ {s q}, P s → s.engine = .running → s.active = none → choose s = .start q → P (makeActive q s)
  resume : ∀ {s c rest}, P s → s.engine = .running → s.active = none → s.stack = c :: rest → P (resumed c rest s)
  preempt : ∀ {s c q}, P s → s.active = some c → s.engine ≠ .stopping → preemptor s = some q →
    P (makeActive q (pushActive c s))

namespace SchedulerKeeps

variable {P : State → Prop} (k : SchedulerKeeps P)
include k

theorem beginSegment {s : State} (h : P s) : P (beginSegment s).1 := by
  unfold Machine.beginSegment
  split
  · exact h
  · next c ha =>
    split
    · exact k.segment _ h ha
    · exact k.ends _ _ _ _ h ha

/-- A record whose context has just become active. -/
theorem startRecord {s : State} {q : WqId} (h : P (makeActive q s)) : P (startRecord q s).1 := by
  unfold Machine.startRecord
  dsimp only
  split
  · exact h
  · next c ha =>
    split
    · exact k.ends _ _ _ _ h ha
    · exact k.ends _ _ _ _ h ha
    · exact k.beginSegment h

theorem selectLoop (n : Nat) {s : State} (h : P s) : P (selectLoop n s) := by
  induction n generalizing s with
  | zero => exact h
  | succ n ih =>
    unfold Machine.selectLoop
    split
    · next hr =>
      rcases choose_cases s with ⟨q, hq, _⟩ | ⟨c, rest, hc, hs⟩ | hi
      · rw [hq]
        have hstart := k.startRecord (k.start h hr.1 hr.2 hq)
        dsimp only
        split
        · exact ih hstart
        · exact hstart
      · rw [hc]
        have hresume : P (resumeContext c rest s).1 := k.beginSegment (k.resume h hr.1 hr.2 hs)
        dsimp only
        split
        · exact ih hresume
        · exact hresume
      · rw [hi]
        exact k.level 0 h
    · exact h

theorem select {s : State} (h : P s) : P (select s) := k.selectLoop _ (k.claims false s.claimTurn h)

theorem claimFreed {s : State} (h : P s) : P (claimFreed s) := by
  rcases claimFreed_cases s with hc | ⟨_, _, hc | hc⟩ <;> rw [hc]
  · exact k.select h
  · exact k.select (k.claims s.claimDeferred _ h)
  · exact k.claims _ _ h

theorem selectOnFree (a : State) {s : State} (h : P s) : P (selectOnFree a s) := by
  unfold Machine.selectOnFree
  split
  · exact k.claimFreed h
  · exact h

theorem selectOnIdle (a : State) {s : State} (h : P s) : P (selectOnIdle a s) := by
  unfold Machine.selectOnIdle
  split
  · exact h
  · exact k.select h

theorem settleClaim (a : State) {s : State} (h : P s) : P (settleClaim a s) := by
  unfold Machine.settleClaim
  split
  · exact k.claimFreed (k.claims false s.claimTurn h)
  · exact h

theorem selectAfter {r : State × Bool} (h : P r.1) : P (selectAfter r) := by
  unfold Machine.selectAfter
  split
  · exact k.select h
  · exact h

/-- R35's cases, each one act of the scheduler and then selection. -/
theorem boundaryRule {c : Context} {s : State} (o : Outcome) (h : P s) (ha : s.active = some c) : P (boundaryRule c o s) := by
  cases o with
  | success n =>
    have hmoved : P (advanced c n s) := k.advance n h ha
    have hactive : (advanced c n s).active = some (Machine.advance c n) := rfl
    rw [boundaryRule_success, ← endActive_eq_withActiveEnd _ _ _ _ hactive, ← endActive_eq_withActiveEnd _ _ _ _ hactive,
      ← endActive_eq_withActiveEnd _ _ _ _ hactive, ← selectAfter_beginSegment hactive]
    split_ifs with _ _ hstop
    · exact k.select (k.ends _ _ _ _ hmoved hactive)
    · exact k.select (k.ends _ _ _ _ hmoved hactive)
    · exact k.ends _ _ _ _ hmoved hactive
    · split
      · next q hq => exact k.selectAfter (k.startRecord (k.preempt hmoved hactive hstop hq))
      · exact k.selectAfter (k.beginSegment hmoved)
  | _ => exact k.select (k.ends _ _ _ _ h ha)

end SchedulerKeeps

end Sys2Proof.Machine
end

section
/-! PROOF. The law of the pending list as a balance: the reservations of a state are those of its holders and of a list `l` of holders
that have left, or not yet come; and that the shared operations and the scheduler's keep it. -/

namespace Sys2Proof.Machine

/-! ## The balance -/

/-- What the law of the pending list looks at. -/
structure Ledger where
  held : List Holder
  occupied : Nat
  contexts : List WqId
  drains : WqId → Bool
  admin : Bool
  fetch : Bool

def State.ledger (s : State) : Ledger :=
  { held := s.reserved.map fun r => r.holder, occupied := s.occupied.length, contexts := (contexts s).map fun c => c.queue
    drains := fun q => (s.queue q).drain, admin := adminHolds s, fetch := s.fetch.isSome }

/-- Who must hold a reservation. -/
def Ledger.holders (g : Ledger) : List Holder :=
  g.contexts.map Holder.context ++ (allQueues.filter g.drains).map Holder.drain
  ++ (if g.admin then [.adminRecord] else []) ++ (if g.fetch then [.fetch] else [])

theorem holders_eq (s : State) : holders s = s.ledger.holders := by
  simp only [holders, Ledger.holders, State.ledger, List.map_map]
  rfl

/-- The reservations are those of the holders and of `l`, and with the occupied entries they do not exceed sixteen. -/
structure Ledger.Owes (g : Ledger) (l : List Holder) : Prop where
  perm : g.held.Perm (l ++ g.holders)
  bound : g.held.length + g.occupied ≤ Config.pendingEntries

/-- The law of the pending list is the balance with nobody in between. -/
theorem pendingListLaw_iff (s : State) : PendingListLaw s ↔ s.ledger.Owes [] := by
  rw [PendingListLaw, holders_eq]
  refine ⟨fun ⟨h1, h2⟩ => ⟨h1, ?_⟩, fun ⟨h1, h2⟩ => ⟨h1, ?_⟩⟩
  · simpa [State.ledger] using h2
  · simpa [State.ledger] using h2

section
variable {g : Ledger} {l : List Holder}

/-- A reservation is given up, for an occupied entry or for none. -/
theorem Ledger.Owes.giveUp {x : Holder} {n : Nat} (h : g.Owes (x :: l)) (hn : n ≤ g.occupied + 1) :
    { g with held := g.held.erase x, occupied := n }.Owes l := by
  have hmem : x ∈ g.held := h.perm.mem_iff.mpr (by simp)
  refine ⟨?_, ?_⟩
  · have hp := h.perm.erase x
    rwa [List.cons_append, List.erase_cons_head] at hp
  · have := h.bound
    have := List.length_pos_of_mem hmem
    simp only [List.length_erase_of_mem hmem]
    omega

/-- A free entry is reserved for a holder to come. -/
theorem Ledger.Owes.reserve (x : Holder) (h : g.Owes l) (hf : g.held.length + g.occupied < Config.pendingEntries) :
    { g with held := g.held ++ [x] }.Owes (x :: l) := by
  refine ⟨?_, ?_⟩
  · exact (List.perm_append_singleton x g.held).trans (h.perm.cons x)
  · simpa [Nat.add_right_comm] using hf

/-- Entries leave the list of the occupied. -/
theorem Ledger.Owes.fewer {n : Nat} (h : g.Owes l) (hn : n ≤ g.occupied) : { g with occupied := n }.Owes l :=
  ⟨h.perm, Nat.le_trans (Nat.add_le_add_left hn _) h.bound⟩

/-- A change of who holds: the holders of before and those that came are those of now and those that left. -/
theorem Ledger.Owes.exchange {g' : Ledger} {l' : List Holder} (h : g.Owes l) (hheld : g'.held = g.held)
    (hocc : g'.occupied = g.occupied) (hp : (l ++ g.holders).Perm (l' ++ g'.holders)) : g'.Owes l' :=
  ⟨hheld ▸ h.perm.trans hp, by rw [hheld, hocc]; exact h.bound⟩

/-! ## Holders that leave and come -/

theorem Ledger.holders_contexts {q : WqId} {a b : List WqId} (h : a.Perm (q :: b)) :
    { g with contexts := a }.holders.Perm (.context q :: { g with contexts := b }.holders) := by
  simp only [Ledger.holders, List.append_assoc]
  exact (h.map Holder.context).append_right _

theorem Ledger.holders_drains {q : WqId} {a b : WqId → Bool} (ha : a q = true) (hb : b q = false)
    (h : ∀ p, p ≠ q → a p = b p) :
    { g with drains := a }.holders.Perm (.drain q :: { g with drains := b }.holders) := by
  have hnodup : allQueues.Nodup := by decide
  have hfilter : (allQueues.filter a).Perm (q :: allQueues.filter b) := by
    rw [List.perm_ext_iff_of_nodup (hnodup.filter _) ((hnodup.filter _).cons (by simp [hb]))]
    intro p
    by_cases hp : p = q
    · simp [hp, ha, mem_allQueues]
    · simp [hp, h p hp, mem_allQueues]
  simp only [Ledger.holders, List.append_assoc]
  exact (((hfilter.map Holder.drain).append_right _).append_left _).trans List.perm_middle

theorem Ledger.holders_admin (g : Ledger) :
    { g with admin := true }.holders.Perm (.adminRecord :: { g with admin := false }.holders) := by
  simp only [Ledger.holders, List.append_assoc, if_true, Bool.false_eq_true, if_false, List.nil_append]
  exact (List.perm_middle.append_left _).trans List.perm_middle

theorem Ledger.holders_fetch (g : Ledger) :
    { g with fetch := true }.holders.Perm (.fetch :: { g with fetch := false }.holders) := by
  simp only [Ledger.holders, if_true, Bool.false_eq_true, if_false, List.append_nil]
  exact List.perm_append_singleton _ _

end

/-! ## The shared operations -/

/-- The law of the pending list holds (R108). -/
def State.Balanced (s : State) : Prop := s.ledger.Owes []

theorem State.Balanced.frame {s t : State} (h : s.Balanced) (e : t.ledger = s.ledger) : t.Balanced := by
  rwa [State.Balanced, e]

theorem hasFree_iff (s : State) : hasFree s = true ↔ s.ledger.held.length + s.ledger.occupied < Config.pendingEntries := by
  simp [hasFree, freeEntries, State.ledger]

theorem setQueue_ledger (s : State) (q : WqId) (d : Queue) :
    (s.setQueue q d).ledger = { s.ledger with drains := Function.update s.ledger.drains q d.drain } := by
  have hdrains : (fun p => ((s.setQueue q d).queue p).drain) = Function.update (fun p => (s.queue p).drain) q d.drain := by
    funext p
    by_cases hp : p = q <;> simp [State.setQueue_queue, hp]
  simp only [State.ledger, hdrains]
  rfl

/-- A descriptor is replaced by one with its drain flag. -/
theorem setQueue_ledger_same {s : State} {q : WqId} {d : Queue} (h : d.drain = (s.queue q).drain) :
    (s.setQueue q d).ledger = s.ledger := by
  have hsame : Function.update s.ledger.drains q d.drain = s.ledger.drains := by
    rw [h]
    exact Function.update_eq_self q _
  rw [setQueue_ledger, hsame]

theorem setQueue_owes {s : State} {l : List Holder} {q : WqId} {d : Queue} (hd : d.drain = (s.queue q).drain)
    (h : s.ledger.Owes l) : (s.setQueue q d).ledger.Owes l := by
  rwa [setQueue_ledger_same hd]

theorem setRing_ledger (s : State) (c : CqId) (r : Ring) : (s.setRing c r).ledger = s.ledger := rfl

theorem release_ledger (x : Holder) (s : State) : (release x s).ledger = { s.ledger with held := s.ledger.held.erase x } := by
  simp only [State.ledger, release_reserved, removeHolder_map]
  rfl

theorem reserve_ledger (x : Holder) (c : CqId) (s : State) :
    (reserve x c s).ledger = { s.ledger with held := s.ledger.held ++ [x] } := by
  simp only [State.ledger, reserve_reserved, List.map_append]
  rfl

theorem reserve_owes {s : State} {l : List Holder} (x : Holder) (c : CqId) (h : s.ledger.Owes l) (hf : hasFree s = true) :
    (reserve x c s).ledger.Owes (x :: l) := by
  rw [reserve_ledger]
  exact h.reserve x ((hasFree_iff s).mp hf)

/-- A placement gives up a reservation, for an occupied entry or for none (R110). -/
theorem place_ledger (x : Holder) (c : CqId) (e : Entry) (sup n : Bool) (s : State) :
    ∃ k ≤ s.ledger.occupied + 1,
      (place x c e sup n s).ledger = { s.ledger with held := s.ledger.held.erase x, occupied := k } := by
  rcases place_cases x c e sup n s with ⟨_, hp⟩ | ⟨_, _, hp⟩ | ⟨_, _, hp⟩
  · exact ⟨s.ledger.occupied, Nat.le_succ _, by rw [hp, release_ledger]⟩
  · exact ⟨s.ledger.occupied, Nat.le_succ _, by rw [hp, setRing_ledger, release_ledger]⟩
  · refine ⟨s.ledger.occupied + 1, Nat.le_refl _, ?_⟩
    simp only [hp, State.ledger, removeHolder_map, List.length_append, List.length_singleton]
    rfl

theorem place_owes {s : State} {l : List Holder} {x : Holder} (c : CqId) (e : Entry) (sup n : Bool)
    (h : s.ledger.Owes (x :: l)) : (place x c e sup n s).ledger.Owes l := by
  obtain ⟨k, hk, he⟩ := place_ledger x c e sup n s
  exact he ▸ h.giveUp hk

/-- The fetch in flight leaves. -/
theorem dropFetch_owes {s : State} {l : List Holder} {f : Fetch} (h : s.ledger.Owes l) (hf : s.fetch = some f) :
    ({ s with fetch := none } : State).ledger.Owes (.fetch :: l) := by
  have hfetch : s.ledger = { s.ledger with fetch := true } := by simp only [State.ledger, hf, Option.isSome_some]
  refine h.exchange rfl rfl ?_
  rw [hfetch]
  exact ((Ledger.holders_fetch s.ledger).append_left l).trans List.perm_middle

/-- The fetch in flight leaves with its reservation. -/
theorem releaseFetch_owes {s : State} {l : List Holder} {f : Fetch} (h : s.ledger.Owes l) (hf : s.fetch = some f) :
    (release .fetch { s with fetch := none }).ledger.Owes l := by
  rw [release_ledger]
  exact (dropFetch_owes h hf).giveUp (Nat.le_succ _)

theorem emptySlot_owes {s : State} {l : List Holder} (q : WqId) (h : s.ledger.Owes l) : (emptySlot q s).ledger.Owes l := by
  rcases emptySlot_cases q s with ⟨_, he⟩ | ⟨_, he⟩ | ⟨_, hw, he⟩ | ⟨_, _, he⟩ <;> rw [he]
  · exact h
  · exact setQueue_owes rfl h
  · unfold fetchWaitsFor at hw
    split at hw
    · next f hf =>
      exact setQueue_owes (s := release .fetch { s with fetch := none }) (d := { s.queue q with slot := .empty }) rfl
        (releaseFetch_owes h hf)
    · cases hw
  · exact setQueue_owes rfl h

/-- A fetch comes, for which an entry has been reserved. -/
theorem takeFetch_owes {s : State} {l : List Holder} (f : Fetch) (h : s.ledger.Owes (.fetch :: l)) (hf : s.fetch = none) :
    ({ s with fetch := some f } : State).ledger.Owes l := by
  have hfetch : s.ledger = { s.ledger with fetch := false } := by simp only [State.ledger, hf, Option.isSome_none]
  refine h.exchange rfl rfl (List.perm_middle.symm.trans (.append_left l ?_))
  rw [hfetch]
  exact (Ledger.holders_fetch s.ledger).symm

/-- The admin unit lets go of its record. -/
theorem leaveAdmin_owes {s : State} {l : List Holder} {a : AdminState} (h : s.ledger.Owes l) (ha : adminHolds s = true)
    (hn : adminHolds { s with admin := a } = false) : ({ s with admin := a } : State).ledger.Owes (.adminRecord :: l) := by
  have hbefore : s.ledger = { s.ledger with admin := true } := by simp only [State.ledger, ha]
  have hafter : ({ s with admin := a } : State).ledger = { s.ledger with admin := false } := by simp only [State.ledger, hn]; rfl
  rw [hafter]
  refine h.exchange rfl rfl (.trans (.append_left l ?_) List.perm_middle)
  conv => lhs; rw [hbefore]
  exact Ledger.holders_admin s.ledger

/-- The admin unit takes up a record, for which an entry has been reserved. -/
theorem takeAdmin_owes {s : State} {l : List Holder} {a : AdminState} (h : s.ledger.Owes (.adminRecord :: l))
    (ha : adminHolds s = false) (hn : adminHolds { s with admin := a } = true) : ({ s with admin := a } : State).ledger.Owes l := by
  have hbefore : s.ledger = { s.ledger with admin := false } := by simp only [State.ledger, ha]
  have hafter : ({ s with admin := a } : State).ledger = { s.ledger with admin := true } := by simp only [State.ledger, hn]; rfl
  rw [hafter]
  refine h.exchange rfl rfl (List.perm_middle.symm.trans (.append_left l ?_))
  conv => lhs; rw [hbefore]
  exact (Ledger.holders_admin s.ledger).symm

/-- The admin unit lets go of its record, with the record's reservation (R136). -/
theorem completeAdmin_owes {s : State} {l : List Holder} (b : List Byte) (st : Status) (sub : Sub) (d : Nat)
    (h : s.ledger.Owes l) (ha : adminHolds s = true) : (completeAdmin b st sub d s).ledger.Owes l := by
  have hleft : ({ s with admin := .idle } : State).ledger.Owes (.adminRecord :: l) := leaveAdmin_owes h ha rfl
  obtain ⟨k, hk, he⟩ := place_ledger .adminRecord 0
    { status := st, sub := sub, queue := 0, tag := adminTag b, head := s.adminRing.head, progress := 0, detail := d } false false s
  have hdone : (completeAdmin b st sub d s).ledger
      = { s.ledger with admin := false, held := s.ledger.held.erase .adminRecord, occupied := k } :=
    congrArg (fun g : Ledger => { g with admin := false }) he
  exact hdone ▸ hleft.giveUp hk

theorem adminHolds_executing {s : State} {b : List Byte} {p : AdminPoint} (h : s.admin = .executing b p) :
    adminHolds s = true := by
  simp [adminHolds, h]

theorem adminHolds_congr {s t : State} (h : t.admin = s.admin) : adminHolds t = adminHolds s := by simp only [adminHolds, h]

theorem finishAbort_owes {s : State} {l : List Holder} (b : List Byte) (q : WqId) (sub : Sub) (h : s.ledger.Owes l)
    (ha : adminHolds s = true) : (finishAbort b q sub s).ledger.Owes l := by
  exact completeAdmin_owes _ _ _ _ (setQueue_owes rfl (emptySlot_owes q h)) ((adminHolds_congr (emptySlot_admin q s)).trans ha)

/-! ## Ends -/

/-- The DRAINED notice takes the reservation of a drain that has left. -/
theorem placeNotice_owes {s : State} {l : List Holder} {q : WqId} (n : NextState) (h : s.ledger.Owes (.drain q :: l)) :
    (placeNotice q n s).ledger.Owes l := place_owes _ _ _ _ h

/-- A queue's drain, if one was requested, leaves with the end of its record. -/
theorem endQueue_owes {s : State} {l : List Holder} {q : WqId} {d : Queue} (hq : s.queue q = d) (st : Status) (n : NextState)
    (h : s.ledger.Owes l) : (s.setQueue q (endQueue d st n)).ledger.Owes (if d.drain then .drain q :: l else l) := by
  subst hq
  split
  · next hd =>
    rw [setQueue_ledger]
    refine h.exchange rfl rfl ?_
    have hp : s.ledger.holders.Perm (.drain q :: { s.ledger with drains := Function.update s.ledger.drains q false }.holders) :=
      Ledger.holders_drains (g := s.ledger) (a := s.ledger.drains) hd (Function.update_self ..) fun p hp =>
        (Function.update_of_ne hp _ _).symm
    exact (hp.append_left l).trans List.perm_middle
  · next hd => exact setQueue_owes (Bool.eq_false_iff.mpr hd).symm h

/-- A context that has left its place ends: its reservation and its drain's go (R33, R34). -/
theorem endContext_owes {s : State} {l : List Holder} (c : Context) (st : Status) (sub : Sub) (p d : Nat) (byAbort : Bool)
    (h : s.ledger.Owes (.context c.queue :: l)) : (endContext c st sub p d byAbort s).ledger.Owes l := by
  unfold endContext
  extract_lets q n entry suppressed s1 s2 s3
  have h1 : s1.ledger.Owes l := place_owes _ _ _ _ h
  have hq : s1.queue c.queue = q := place_queue ..
  have h2 : s2.ledger.Owes (if q.drain then .drain c.queue :: l else l) := endQueue_owes hq st n h1
  have h3 : s3.ledger.Owes l := by
    show (if q.drain = true then placeNotice c.queue n s2 else s2).ledger.Owes l
    split at h2
    · next hd => rw [if_pos hd]; exact placeNotice_owes n h2
    · next hd => rwa [if_neg hd]
  split
  · exact emptySlot_owes c.queue h3
  · exact h3

/-- A context leaves its place. -/
theorem leave_owes {s t : State} {q : WqId} (h : s.Balanced)
    (ht : t.ledger = { s.ledger with contexts := (contexts t).map fun c => c.queue })
    (hc : ((contexts s).map fun c => c.queue).Perm (q :: (contexts t).map fun c => c.queue)) : t.ledger.Owes [.context q] := by
  rw [ht]
  exact h.exchange rfl rfl (Ledger.holders_contexts (g := s.ledger) hc)

/-- A context comes, for whose queue an entry has been reserved. -/
theorem join_owes {s t : State} {q : WqId} (h : s.ledger.Owes [.context q])
    (ht : t.ledger = { s.ledger with contexts := (contexts t).map fun c => c.queue })
    (hc : ((contexts t).map fun c => c.queue).Perm (q :: (contexts s).map fun c => c.queue)) : t.Balanced := by
  rw [State.Balanced, ht]
  exact h.exchange rfl rfl (Ledger.holders_contexts (g := s.ledger) hc).symm

theorem endActive_balanced {s : State} {c : Context} (st : Status) (sub : Sub) (p d : Nat) (h : s.Balanced)
    (ha : s.active = some c) : (endActive st sub p d s).Balanced := by
  have hleft : ({ s with active := none, currentLevel := 0 } : State).ledger.Owes [.context c.queue] :=
    leave_owes h rfl (by simp [contexts, ha])
  have hend := endContext_owes c st sub p d (s.queue c.queue).abortPending hleft
  simp only [endActive, ha]
  split
  · next b hb => exact finishAbort_owes _ _ _ hend (adminHolds_executing (awaitedReport_eq_some_iff.mp hb))
  · exact hend

theorem abortStacked_balanced {s : State} {c : Context} (h : s.Balanced) (hc : c ∈ s.stack) : (abortStacked c s).Balanced := by
  refine endContext_owes _ _ _ _ _ _ (leave_owes h rfl ?_)
  have herase : (s.stack.map fun x => x.queue).Perm (c.queue :: (s.stack.eraseP fun p => p.queue == c.queue).map fun x => x.queue) := by
    obtain ⟨x, l₁, l₂, _, hx, hl, he⟩ := List.exists_of_eraseP (p := fun p : Context => p.queue == c.queue) hc (by simp)
    have hxq : x.queue = c.queue := by simpa using hx
    rw [he, hl, List.map_append, List.map_append, List.map_cons, hxq]
    exact List.perm_middle
  simp only [contexts, List.map_append]
  exact (herase.append_left _).trans List.perm_middle

theorem endStackStopped_balanced (l : List Context) {s : State} (h : s.Balanced) (hl : s.stack = l) :
    (endStackStopped l s).Balanced := by
  induction l generalizing s with
  | nil => exact h.frame (by simp only [State.ledger, contexts, hl]; rfl)
  | cons c rest ih =>
    have hleft : ({ s with stack := rest } : State).ledger.Owes [.context c.queue] := by
      refine leave_owes h rfl ?_
      simp only [contexts, hl, List.map_append, List.map_cons]
      exact List.perm_middle
    have hstack : (endContext c .stopped .none c.done 0 false { s with stack := rest }).stack = rest :=
      congrArg (fun m => m.2.1) (endContext_moverPart c .stopped .none c.done 0 false { s with stack := rest })
    exact ih (endContext_owes _ _ _ _ _ _ hleft) hstack

end Sys2Proof.Machine
end

section
/-! PROOF. The scheduler, the mover and engine control keep the law of the pending list. -/

namespace Sys2Proof.Machine

/-! ## The scheduler's acts -/

/-- A record that starts takes a free entry for its context (R32, R109). -/
theorem makeActive_balanced {s : State} (q : WqId) (h : s.Balanced) (ha : s.active = none) (hf : hasFree s = true) :
    (makeActive q s).Balanced := by
  rcases makeActive_eq_or q s with he | ⟨b, hb⟩
  · rwa [he]
  · have hreserved := reserve_owes (.context q) ((s.queue q).ring.getD 0) h hf
    have hset := setQueue_owes (s := reserve (.context q) ((s.queue q).ring.getD 0) s) (q := q)
      (d := { s.queue q with head := ((s.queue q).head + 1) % (s.queue q).ringSize, slot := .empty, state := .running }) rfl hreserved
    simp only [makeActive, hb]
    exact join_owes hset rfl (by simp [contexts, reserve, ha])

/-- The active context goes to the stack. -/
theorem pushActive_ledger {s : State} {c : Context} (ha : s.active = some c) : (pushActive c s).ledger = s.ledger := by
  have hset : (s.setQueue c.queue { s.queue c.queue with
      state := .suspended, timesSuspended := bump (s.queue c.queue).timesSuspended }).ledger = s.ledger := setQueue_ledger_same rfl
  have hcontexts : contexts (pushActive c s) = contexts s := by simp [contexts, pushActive, ha]
  rw [← hset]
  simp only [State.ledger, hcontexts]
  rfl

/-- The top context comes back from the stack. -/
theorem resumed_ledger {s : State} {c : Context} {rest : List Context} (ha : s.active = none) (hs : s.stack = c :: rest) :
    (resumed c rest s).ledger = s.ledger := by
  have hset : (s.setQueue c.queue { s.queue c.queue with state := .running }).ledger = s.ledger := setQueue_ledger_same rfl
  have hcontexts : contexts (resumed c rest s) = contexts s := by simp [contexts, resumed, ha, hs]
  rw [← hset]
  simp only [State.ledger, hcontexts]
  rfl

theorem advanced_ledger {s : State} {c : Context} (n : Nat) (ha : s.active = some c) : (advanced c n s).ledger = s.ledger := by
  have hcontexts : (contexts (advanced c n s)).map (fun c => c.queue) = (contexts s).map fun c => c.queue := by
    simp [contexts, advanced, ha]
  simp only [State.ledger, hcontexts]
  rfl

/-- Every act of the scheduler keeps the law of the pending list. -/
theorem scheduler_balanced : SchedulerKeeps State.Balanced where
  claims _ _ h := h.frame rfl
  level _ h := h.frame rfl
  advance n h ha := h.frame (advanced_ledger n ha)
  segment _ h _ := h.frame rfl
  ends st sub p d h ha := endActive_balanced st sub p d h ha
  start h _ ha hq := makeActive_balanced _ h ha (hasFree_of_choose hq)
  resume h _ ha hs := h.frame (resumed_ledger ha hs)
  preempt h ha _ hq :=
    have hf := hasFree_of_preemptor hq
    makeActive_balanced _ (h.frame (pushActive_ledger ha)) rfl hf

/-! ## A boundary at which an aperture command waits (R83, R149) -/

theorem makeActive_admin (q : WqId) (s : State) : (makeActive q s).admin = s.admin := by
  unfold makeActive
  dsimp only
  split <;> rfl

/-- An aperture command that waits for its update waits through every act of the scheduler. -/
theorem scheduler_waitUpdate (b : List Byte) : SchedulerKeeps fun s => s.admin = .executing b .waitUpdate where
  claims _ _ h := h
  level _ h := h
  advance _ h _ := h
  segment _ h _ := h
  ends st sub p d h ha := by
    rw [endActive_of_no_report st sub p d ha (by simp [h]), endContext_admin]
    exact h
  start h _ _ _ := (makeActive_admin ..).trans h
  resume h _ _ _ := h
  preempt h _ _ _ := (makeActive_admin ..).trans h

theorem awaitedUpdate_executing {s : State} {b : List Byte} (h : awaitedUpdate s = some b) :
    s.admin = .executing b .waitUpdate := by
  unfold awaitedUpdate at h
  split at h
  · next b' u hb hu => rw [hb, Option.some.inj h]
  · cases h

theorem applyWaiting_ledger (s : State) : (applyWaiting s).ledger = s.ledger := by
  unfold applyWaiting applyUpdate
  split
  · dsimp only
    split <;> rfl
  · rfl

theorem applyWaiting_admin (s : State) : (applyWaiting s).admin = s.admin := by
  unfold applyWaiting applyUpdate
  split
  · dsimp only
    split <;> rfl
  · rfl

theorem segmentBoundary_balanced {s : State} (o : Outcome) (h : s.Balanced) : (segmentBoundary o s).Balanced := by
  unfold segmentBoundary
  split
  · exact h.frame rfl
  · next c ha =>
    have ha' : ({ applyWaiting s with segment := none } : State).active = some c := (applyWaiting_active s).trans ha
    have hrule : (boundaryRule c o { applyWaiting s with segment := none }).Balanced :=
      scheduler_balanced.boundaryRule o (h.frame (applyWaiting_ledger s)) ha'
    dsimp only
    split
    · next b hb =>
      have hwaits : (boundaryRule c o { applyWaiting s with segment := none }).admin = .executing b .waitUpdate :=
        (scheduler_waitUpdate b).boundaryRule o ((applyWaiting_admin s).trans (awaitedUpdate_executing hb)) ha'
      exact scheduler_balanced.selectOnFree _ (completeAdmin_owes _ _ _ _ hrule (adminHolds_executing hwaits))
    · exact hrule

theorem moverTakes_balanced {s : State} (k : Nat) (r : Resolution) (h : s.Balanced) : (moverTakes k r s).Balanced := by
  unfold moverTakes
  split
  · split
    · exact h.frame rfl
    · exact segmentBoundary_balanced _ h
  · exact h

/-! ## Grants -/

theorem adminHolds_unissued (s : State) : adminHolds s.unissued = adminHolds s := by
  unfold adminHolds State.unissued
  cases s.admin with
  | executing b p => cases p <;> rfl
  | _ => rfl

/-- The ledger does not see what is out. -/
theorem unissued_ledger (s : State) : s.unissued.ledger = s.ledger := by
  have hadmin : adminHolds s.unissued = adminHolds s := adminHolds_unissued s
  have hoccupied : s.unissued.occupied.length = s.occupied.length := List.length_map ..
  have hfetch : s.unissued.fetch.isSome = s.fetch.isSome := Option.isSome_map ..
  simp only [State.ledger, hadmin, hoccupied, hfetch]
  rfl

theorem grantAll_balanced {s : State} (h : s.Balanced) : (grantAll s).Balanced := by
  refine h.frame ?_
  rw [← unissued_ledger, (grantAll_onlyIssues s).1, unissued_ledger]

/-! ## Engine control -/

theorem enterStarting_balanced {s : State} (h : s.Balanced) : (enterStarting s).Balanced := by
  unfold enterStarting
  dsimp only
  split <;> exact h.frame rfl

theorem rootResolved_balanced {s : State} (r : Resolution) (h : s.Balanced) : (rootResolved r s).Balanced := by
  unfold rootResolved
  split
  · dsimp only
    split
    · split
      · split
        · exact scheduler_balanced.select (h.frame rfl)
        · exact h.frame rfl
      · exact h.frame rfl
    · split <;> exact h.frame rfl
  · exact h

theorem stopQueue_balanced {s : State} (q : WqId) (h : s.Balanced) : (stopQueue q s).Balanced := by
  have hempty : (emptySlot q s).Balanced := emptySlot_owes q h
  unfold stopQueue
  dsimp only
  split
  · exact setQueue_owes rfl hempty
  · exact hempty

theorem foldl_balanced {α : Type} {f : State → α → State} (hf : ∀ s x, s.Balanced → (f s x).Balanced) (l : List α) {s : State}
    (h : s.Balanced) : (l.foldl f s).Balanced := by
  induction l generalizing s with
  | nil => exact h
  | cons x xs ih => exact ih (hf s x h)

theorem enterStopping_balanced {s : State} (h : s.Balanced) : (enterStopping s).Balanced :=
  foldl_balanced (fun _ q => stopQueue_balanced q) _ (endStackStopped_balanced s.stack (h.frame rfl) rfl)

/-- A halt that ends holds nothing. -/
theorem reachStopped_balanced {s : State} (h : s.Balanced) : (reachStopped s).Balanced := by
  have hstopped (a : AdminState) (ha : a = match s.admin with | .halted _ => .idle | a => a) :
      ({ s.setRing 0 (unconfiguredRing (s.ring 0)) with
         engine := .stopped, graceTimer := .stopped, adminRing := AdminRing.reset, admin := a } : State).Balanced := by
    refine h.frame ?_
    have hadmin : adminHolds { s.setRing 0 (unconfiguredRing (s.ring 0)) with
        engine := .stopped, graceTimer := .stopped, adminRing := AdminRing.reset, admin := a } = adminHolds s := by
      subst ha
      simp only [adminHolds]
      cases s.admin <;> rfl
    simp only [State.ledger, hadmin]
    rfl
  unfold reachStopped
  dsimp only
  split
  · exact enterStarting_balanced (hstopped _ rfl)
  · exact hstopped _ rfl

theorem dropOccupied_balanced {s : State} (h : s.Balanced) : (dropOccupied s).Balanced :=
  Ledger.Owes.fewer h (Nat.zero_le _)

theorem stopProgress_balanced {s : State} (h : s.Balanced) : (stopProgress s).Balanced := by
  unfold stopProgress
  split
  · extract_lets t
    have ht : t.Balanced := by
      show State.Balanced (if _ then _ else _)
      split
      · exact h.frame rfl
      · exact h
    clear_value t
    split
    · exact ht
    · split
      · exact reachStopped_balanced ht
      · exact ht
    · split
      · exact ht
      · exact reachStopped_balanced (dropOccupied_balanced ht)
  · exact h

theorem finishStep_balanced {s : State} (h : s.Balanced) : (finishStep s).Balanced := grantAll_balanced (stopProgress_balanced h)

/-- Nothing is reserved and nobody holds after a reset (R105, R167). -/
theorem reset_balanced : State.reset.Balanced := (pendingListLaw_iff _).mp (by decide)

theorem writeControl_balanced {s : State} (v : Reg) (h : s.Balanced) : (writeControl v s).Balanced := by
  have hset : ({ s with run := v.getLsbD 0, notifyEnable := v.getLsbD 1 } : State).Balanced := h.frame rfl
  unfold writeControl
  split
  · exact reset_balanced.frame rfl
  · dsimp only
    split
    · exact hset
    · split
      · unfold runTo1
        split
        · exact grantAll_balanced (enterStarting_balanced hset)
        · exact hset
      · unfold runTo0
        split
        · exact finishStep_balanced (enterStopping_balanced hset)
        · split
          · exact hset.frame rfl
          · exact hset
        · exact hset.frame rfl
        · exact hset

end Sys2Proof.Machine
end

section
/-! PROOF. Every event keeps the law of the pending list: the statement EveryStepKeepsThePendingList. -/

namespace Sys2Proof.Machine

/-! ## The register port -/

theorem unlessHeld_balanced {f : State → State} (hf : ∀ s, s.Balanced → (f s).Balanced) {s : State} (h : s.Balanced) :
    (unlessHeld f s).Balanced := by
  unfold unlessHeld
  split
  · exact hf s h
  · exact h.frame rfl

theorem postToAdmin_balanced {s : State} (new : Nat) (h : s.Balanced) : (postToAdmin new s).Balanced := by
  have hadmin (r : AdminRing) : adminHolds { s with adminRing := r, admin := endHalt s.admin } = adminHolds s := by
    simp only [adminHolds]
    cases s.admin <;> rfl
  unfold postToAdmin
  dsimp only
  split
  · refine h.frame ?_
    simp only [State.ledger, hadmin]
    rfl
  · exact h.frame rfl

theorem writePost_balanced {s : State} (v : Reg) (h : s.Balanced) : (writePost v s).Balanced := by
  unfold writePost
  split
  · exact h.frame rfl
  · split
    · exact postToAdmin_balanced _ h
    · unfold postToQueue
      dsimp only
      split
      · exact setQueue_owes rfl h
      · exact h.frame rfl

theorem writeAck_balanced {s : State} (v : Reg) (h : s.Balanced) : (writeAck v s).Balanced := by
  unfold writeAck
  dsimp only
  split
  · exact h.frame rfl
  · split
    · exact grantAll_balanced (h.frame rfl)
    · exact h.frame rfl

theorem portAccess_balanced {s : State} (a : Access) (h : s.Balanced) : (portAccess a s).Balanced := by
  have hwrite (offset : Nat) (v : Reg) (t : State) (ht : t.Balanced) : (portWrite offset v t).Balanced := by
    unfold portWrite
    split_ifs
    · exact writeControl_balanced v ht
    · exact ht.frame rfl
    · exact ht.frame rfl
    · exact ht.frame rfl
    · exact writePost_balanced v ht
    · exact writeAck_balanced v ht
    · exact ht
  unfold portAccess
  refine unlessHeld_balanced (fun t ht => ?_) ?_
  · split
    · split
      · exact hwrite _ _ t ht
      · exact ht
    · exact ht.frame rfl
  · split
    · exact h
    · exact h.frame rfl

/-! ## Admin commands -/

/-- A command that the admin unit carries out, in a state in which it holds the command's record. -/
def CommandKeeps (run : State → State) : Prop := ∀ s, s.Balanced → adminHolds s = true → (run s).Balanced

theorem adminHolds_of_ledger {s t : State} (h : t.ledger = s.ledger) : adminHolds t = adminHolds s := congrArg Ledger.admin h

theorem setQueue_complete_balanced {s : State} {q : WqId} {d : Queue} (b : List Byte) (st : Status) (sub : Sub) (n : Nat)
    (hd : d.drain = (s.queue q).drain) (h : s.Balanced) (ha : adminHolds s = true) :
    (completeAdmin b st sub n (s.setQueue q d)).Balanced :=
  completeAdmin_owes _ _ _ _ (setQueue_owes hd h) ha

theorem enableQueue_balanced (b : List Byte) : CommandKeeps (enableQueue b) := by
  intro s h ha
  unfold enableQueue
  dsimp only
  split
  · exact scheduler_balanced.selectOnIdle _ (setQueue_complete_balanced _ _ _ _ rfl h ha)
  · exact completeAdmin_owes _ _ _ _ h ha

theorem resumeQueue_balanced (b : List Byte) : CommandKeeps (resumeQueue b) := fun _ h ha =>
  scheduler_balanced.selectOnIdle _ (setQueue_complete_balanced _ _ _ _ rfl h ha)

/-- The admin unit's entry reserved for a drain (R143). -/
theorem drainRequested_balanced {s : State} {q : WqId} (h : s.Balanced) (hd : (s.queue q).drain = false)
    (hf : hasFree s = true) : (drainRequested q s).Balanced := by
  refine emptySlot_owes q ?_
  have hreserved := reserve_owes (.drain q) 0 h hf
  rw [setQueue_ledger]
  refine hreserved.exchange rfl rfl ?_
  exact (Ledger.holders_drains (g := (reserve (.drain q) 0 s).ledger) (b := (reserve (.drain q) 0 s).ledger.drains)
    (Function.update_self ..) hd fun p hp => Function.update_of_ne hp _ _).symm

theorem applyDisable_balanced {b : List Byte} {q : WqId} {s t : State} (h : s.Balanced) (ha : adminHolds s = true)
    (ht : applyDisable b q s = some t) : t.Balanced := by
  have hdone (sub : Sub) (u : State) (hu : u.Balanced) (hadmin : u.admin = s.admin)
      (e : some (completeAdmin b .ok sub 0 u) = some t) : t.Balanced :=
    Option.some.inj e ▸ completeAdmin_owes _ _ _ _ hu ((adminHolds_congr hadmin).trans ha)
  have hnow : (disabledNow q s).Balanced := setQueue_owes rfl (emptySlot_owes q h)
  have hnowAdmin : (disabledNow q s).admin = s.admin := emptySlot_admin q s
  unfold applyDisable at ht
  dsimp only at ht
  split at ht
  · exact hdone _ s h rfl ht
  · exact hdone _ _ hnow hnowAdmin ht
  · exact hdone _ _ hnow hnowAdmin ht
  all_goals
    split_ifs at ht with hd _ hf
    · exact hdone _ s h rfl ht
    · exact hdone _ s h rfl ht
    · exact hdone _ _ (drainRequested_balanced h (Bool.eq_false_iff.mpr hd) hf) (emptySlot_admin ..) ht

theorem waitFor_balanced {s : State} (b : List Byte) (p : AdminPoint) (h : s.Balanced) (ha : adminHolds s = true) :
    (waitFor b p s).Balanced := by
  refine h.frame ?_
  simp only [State.ledger, ha]
  rfl

theorem disableQueue_balanced (b : List Byte) : CommandKeeps (disableQueue b) := by
  intro s h ha
  unfold disableQueue
  split
  · next ht => exact applyDisable_balanced h ha ht
  · exact waitFor_balanced _ _ h ha

theorem abortQueue_balanced (b : List Byte) : CommandKeeps (abortQueue b) := by
  intro s h ha
  unfold abortQueue
  dsimp only
  split
  · exact waitFor_balanced _ _ (setQueue_owes rfl h) ha
  · split
    · next c hc =>
      have hadmin : (abortStacked c s).admin = s.admin := endContext_admin ..
      exact finishAbort_owes _ _ _ (abortStacked_balanced h (List.mem_of_find?_eq_some hc)) ((adminHolds_congr hadmin).trans ha)
    · exact finishAbort_owes _ _ _ h ha

theorem handUpdate_balanced (u : ApertureUpdate) (b : List Byte) : CommandKeeps (handUpdate u b) := by
  intro s h ha
  have hupdate : (applyUpdate u s).ledger = s.ledger := by
    unfold applyUpdate
    split <;> rfl
  unfold handUpdate
  split
  · exact waitFor_balanced _ _ (h.frame rfl) ha
  · exact completeAdmin_owes _ _ _ _ (h.frame hupdate) ((adminHolds_of_ledger hupdate).trans ha)

/-- The queues' counters at 0 (R150). -/
def queuesCleared (s : State) : State :=
  allQueues.foldl (fun s q => s.setQueue q
    { s.queue q with endedOk := 0, endedFault := 0, endedAborted := 0, timesSuspended := 0, discarded := 0 }) s

/-- The rings' counters at 0 (R150). -/
def ringsCleared (s : State) : State :=
  allRings.foldl (fun s c => s.setRing c { s.ring c with written := 0, discarded := 0 }) s

theorem clearCounters_eq (s : State) :
    clearCounters s = { ringsCleared (queuesCleared s) with counters := EngineCounters.reset } := rfl

theorem foldl_ledger {α : Type} {f : State → α → State} (hf : ∀ s x, (f s x).ledger = s.ledger) (l : List α) (s : State) :
    (l.foldl f s).ledger = s.ledger := by
  induction l generalizing s with
  | nil => rfl
  | cons x xs ih => exact (ih _).trans (hf s x)

theorem clearCounters_ledger (s : State) : (clearCounters s).ledger = s.ledger := by
  have hqueues : (queuesCleared s).ledger = s.ledger := by
    unfold queuesCleared
    generalize allQueues = l
    exact foldl_ledger (fun t q => by exact setQueue_ledger_same rfl) l s
  have hrings (u : State) : (ringsCleared u).ledger = u.ledger := by
    unfold ringsCleared
    generalize allRings = l
    exact foldl_ledger (fun t c => by exact setRing_ledger t c _) l u
  have hengine (u : State) : ({ u with counters := EngineCounters.reset } : State).ledger = u.ledger := rfl
  rw [clearCounters_eq, hengine, hrings, hqueues]

theorem readStatistics_balanced (b : List Byte) : CommandKeeps (readStatistics b) := by
  intro s h ha
  unfold readStatistics
  dsimp only
  split
  · exact waitFor_balanced _ _ (h.frame (clearCounters_ledger s)) ((adminHolds_of_ledger (clearCounters_ledger s)).trans ha)
  · exact waitFor_balanced _ _ h ha

theorem queryQueue_balanced (b : List Byte) : CommandKeeps (queryQueue b) := fun _ h ha => waitFor_balanced _ _ h ha

/-- A command that completes with no effect on what the law looks at. -/
theorem complete_balanced {b : List Byte} {st : Status} {sub : Sub} {n : State → Nat} {f : State → State}
    (hf : ∀ s, (f s).ledger = s.ledger) : CommandKeeps fun s => completeAdmin b st sub (n s) (f s) := fun s h ha =>
  completeAdmin_owes _ _ _ _ (h.frame (hf s)) ((adminHolds_of_ledger (hf s)).trans ha)

theorem setEngine_balanced (b : List Byte) : CommandKeeps (setEngine b) := complete_balanced fun _ => rfl
theorem configureQueue_balanced (b : List Byte) : CommandKeeps (configureQueue b) :=
  complete_balanced fun _ => setQueue_ledger_same rfl
theorem configureCq_balanced (b : List Byte) : CommandKeeps (configureCq b) := complete_balanced fun _ => rfl
theorem markRecord_balanced (b : List Byte) : CommandKeeps (markRecord b) := complete_balanced fun _ => rfl

/-! ## A checked record -/

theorem executeRecord_balanced {run : List Byte → State → State} {s : State} {b : List Byte} (v : Option (Status × Sub))
    (hrun : CommandKeeps (run b)) (h : s.Balanced) (ha : adminHolds s = true) : (executeRecord v run b s).Balanced := by
  refine finishStep_balanced (scheduler_balanced.selectOnFree _ ?_)
  split
  · exact completeAdmin_owes _ _ _ _ h ha
  · exact hrun s h ha

theorem commandKeeps_ite {p : Prop} [Decidable p] {f g : State → State} (hf : CommandKeeps f) (hg : CommandKeeps g) :
    CommandKeeps (if p then f else g) := by
  split
  · exact hf
  · exact hg

/-- Each of the twelve commands (R136). -/
theorem carryOut_balanced (b : List Byte) : CommandKeeps (carryOut b) :=
  commandKeeps_ite (setEngine_balanced b) <|
  commandKeeps_ite (configureQueue_balanced b) <|
  commandKeeps_ite (enableQueue_balanced b) <|
  commandKeeps_ite (disableQueue_balanced b) <|
  commandKeeps_ite (abortQueue_balanced b) <|
  commandKeeps_ite (resumeQueue_balanced b) <|
  commandKeeps_ite (configureCq_balanced b) <|
  commandKeeps_ite (handUpdate_balanced _ b) <|
  commandKeeps_ite (handUpdate_balanced _ b) <|
  commandKeeps_ite (readStatistics_balanced b) <|
  commandKeeps_ite (queryQueue_balanced b) <|
  markRecord_balanced b

/-! ## What comes before an event -/

theorem settleRecord_balanced {s : State} (h : s.Balanced) : (settleRecord s).Balanced := by
  unfold settleRecord
  split
  · next hb => exact executeRecord_balanced _ (carryOut_balanced _) h (adminHolds_executing hb)
  · exact h

theorem settleDeferred_balanced {s : State} (h : s.Balanced) : (settleDeferred s).Balanced := by
  unfold settleDeferred
  split
  · exact grantAll_balanced (scheduler_balanced.select h)
  · exact h

theorem lookAgain_balanced {s t : State} (h : s.Balanced) (ht : lookAgain s = some t) : t.Balanced := by
  unfold lookAgain at ht
  split at ht
  · next hb =>
    split at ht
    · next hu =>
      cases ht
      have hdone := applyDisable_balanced h (adminHolds_executing hb) hu
      refine finishStep_balanced ?_
      split
      · exact scheduler_balanced.settleClaim _ hdone
      · exact scheduler_balanced.selectOnFree _ hdone
    · cases ht
  · cases ht

theorem settleLook_balanced {s : State} (h : s.Balanced) : (settleLook s).Balanced := by
  unfold settleLook
  split
  · cases ht : lookAgain s with
    | none => exact h
    | some t => exact lookAgain_balanced h ht
  · exact h

theorem settleDue_balanced {s : State} (h : s.Balanced) : (settleDue s).Balanced :=
  settleDeferred_balanced (settleLook_balanced (settleDeferred_balanced (settleRecord_balanced h)))

theorem disableApplied_balanced {s : State} (h : s.Balanced) : (disableApplied s).Balanced := by
  unfold disableApplied
  split
  · next ht => exact lookAgain_balanced h ht
  · exact settleDeferred_balanced h

theorem adminRow_balanced {mine : Nat → Bool} {run : List Byte → State → State} {s : State} (h : s.Balanced)
    (hrun : ∀ b, CommandKeeps (run b)) : (adminRow mine run s).Balanced := by
  unfold adminRow
  split
  · next b v hb =>
    split
    · exact executeRecord_balanced v (hrun b) h (adminHolds_executing hb)
    · exact settleDue_balanced h
  · exact settleDue_balanced h

/-! ## The clients' answers -/

theorem removeInFlight_length_le (c : CqId) (l : List Occupied) : (removeInFlight c l).length ≤ l.length := by
  induction l with
  | nil => exact Nat.le_refl _
  | cons o os ih =>
    simp only [removeInFlight]
    split
    · exact Nat.le_succ _
    · exact Nat.succ_le_succ ih

/-- Entries leave the list of the occupied (R112, R118). -/
theorem dropEntries_balanced {s : State} {l : List Occupied} (r : Vector Ring 4) (h : s.Balanced)
    (hl : l.length ≤ s.occupied.length) : ({ s with rings := r, occupied := l } : State).Balanced :=
  Ledger.Owes.fewer h hl

theorem entryWritten_balanced {s : State} (c : CqId) (h : s.Balanced) : (entryWritten c s).Balanced := by
  unfold entryWritten
  split
  · exact h
  · exact scheduler_balanced.claimFreed (dropEntries_balanced _ h (removeInFlight_length_le ..))

theorem ringBroken_balanced {s : State} (c : CqId) (h : s.Balanced) : (ringBroken c s).Balanced := by
  unfold ringBroken
  split
  · exact h
  · exact scheduler_balanced.claimFreed (dropEntries_balanced _ h (List.length_filter_le ..))

/-- A fetch that ends takes its reservation along (R62 to R65). -/
theorem fetchEnded_balanced {s : State} {f : Fetch} {d : Queue} (h : s.Balanced) (hf : s.fetch = some f)
    (hd : d.drain = (s.queue f.queue).drain) :
    ({ (release .fetch s).setQueue f.queue d with fetch := none } : State).Balanced :=
  setQueue_owes (s := release .fetch { s with fetch := none }) hd (releaseFetch_owes h hf)

theorem fetchFailed_balanced {s : State} {f : Fetch} (timeout : Bool) (h : s.Balanced) (hf : s.fetch = some f) :
    (fetchFailed f timeout s).Balanced := by
  unfold fetchFailed
  dsimp only
  split_ifs
  · exact scheduler_balanced.claimFreed (fetchEnded_balanced (d := { s.queue f.queue with slot := .empty }) h hf rfl)
  · exact scheduler_balanced.claimFreed (fetchEnded_balanced (d := { s.queue f.queue with slot := .empty, hold := true }) h hf rfl)
  · exact scheduler_balanced.selectOnFree _ (place_owes _ _ _ _
      (setQueue_owes (s := { s with fetch := none }) rfl (dropFetch_owes h hf)))

theorem fetchTakes_balanced {s : State} (r : Resolution) (h : s.Balanced) : (fetchTakes r s).Balanced := by
  unfold fetchTakes
  split
  · exact h
  · next f hf =>
    split
    · exact scheduler_balanced.claimFreed (fetchEnded_balanced h hf rfl)
    · exact fetchFailed_balanced true h hf
    · exact fetchFailed_balanced false h hf

theorem adminRecordTakes_balanced {s : State} (r : Resolution) (h : s.Balanced) : (adminRecordTakes r s).Balanced := by
  unfold adminRecordTakes
  split
  · next i n hi =>
    have ha : adminHolds s = true := by simp [adminHolds, hi]
    have hleft : ({ s with admin := .halted i } : State).ledger.Owes [.adminRecord] := leaveAdmin_owes h ha rfl
    split
    · exact waitFor_balanced _ _ (h.frame rfl) ha
    · exact scheduler_balanced.selectOnFree _ (place_owes _ _ _ _ hleft)
  · exact h

theorem adminWriteTakes_balanced {s : State} (k : Nat) (r : Resolution) (h : s.Balanced) : (adminWriteTakes k r s).Balanced := by
  unfold adminWriteTakes
  split
  · next hb =>
    have ha := adminHolds_executing hb
    dsimp only
    split
    · refine scheduler_balanced.selectOnFree _ ?_
      split <;> exact completeAdmin_owes _ _ _ _ h ha
    · exact waitFor_balanced _ _ h ha
  · exact h

theorem resolve_balanced {s : State} (o : Owner) (r : Resolution) (h : s.Balanced) : (resolve o r s).Balanced := by
  cases o with
  | completion c =>
    cases r with
    | ack => exact entryWritten_balanced c h
    | data b => exact entryWritten_balanced c h
    | error => exact ringBroken_balanced c h
    | timeout => exact ringBroken_balanced c h
  | adminRecord => exact adminRecordTakes_balanced r h
  | rootRead => exact rootResolved_balanced r h
  | adminWrite k => exact adminWriteTakes_balanced k r h
  | fetch => exact fetchTakes_balanced r h
  | mover k => exact moverTakes_balanced k r h

/-! ## The memory port's events -/

theorem portTakes_balanced {s : State} (tag : BitVec 8) (r : Result) (h : s.Balanced) : (portTakes tag r s).Balanced := by
  unfold portTakes
  split
  · dsimp only
    split
    · exact h.frame rfl
    · exact grantAll_balanced (h.frame rfl)
    · exact grantAll_balanced ((finishStep_balanced (resolve_balanced _ _ h)).frame rfl)
  · exact h.frame rfl

theorem takeResponse_balanced {s : State} (tag : BitVec 8) (r : Result) (h : s.Balanced) : (takeResponse tag r s).Balanced :=
  unlessHeld_balanced (fun _ => portTakes_balanced tag r) (settleDue_balanced h)

theorem takeTimeout_balanced {s : State} (t : TagId) (h : s.Balanced) : (takeTimeout t s).Balanced := by
  unfold takeTimeout
  split
  · exact finishStep_balanced (resolve_balanced _ _ (h.frame rfl))
  · exact h

/-! ## Timers and claims -/

theorem expireAge_balanced {s : State} (c : CqId) (h : s.Balanced) : (expireAge c s).Balanced := by
  unfold expireAge
  split
  · exact h.frame rfl
  · exact h

theorem expireGrace_balanced {s : State} (h : s.Balanced) : (expireGrace s).Balanced := by
  unfold expireGrace
  split
  · exact finishStep_balanced (h.frame rfl)
  · exact h

/-- The take-up's entry is reserved for the admin unit's record (R131). -/
theorem takeUp_balanced {s : State} (h : s.Balanced) : (takeUp s).Balanced := by
  unfold takeUp
  split
  · next hc =>
    obtain ⟨_, hidle, _, hfree⟩ := (canTakeUp_iff s).mp hc
    have hreserved := reserve_owes .adminRecord 0 h (by simpa [hasFree] using hfree)
    have htaken : ({ reserve .adminRecord 0 s with admin := .fetching s.adminRing.head false } : State).Balanced :=
      takeAdmin_owes hreserved (by simp [adminHolds, reserve, hidle]) rfl
    exact grantAll_balanced (scheduler_balanced.settleClaim _ htaken)
  · exact settleDeferred_balanced h

/-- The fetch's entry is reserved (R61). -/
theorem fetchIssue_balanced {s : State} (h : s.Balanced) : (fetchIssue s).Balanced := by
  unfold fetchIssue
  split
  · next q hq =>
    obtain ⟨hidle, hfree, _⟩ := (fetchClaim_isSome_iff s).mp (by simp [hq])
    have hreserved := reserve_owes .fetch ((s.queue q).ring.getD 0) h (by simpa [hasFree] using hfree)
    have hset := setQueue_owes (s := reserve .fetch ((s.queue q).ring.getD 0) s) (q := q)
      (d := { s.queue q with slot := .filling false }) rfl hreserved
    have hissued : ({ (reserve .fetch ((s.queue q).ring.getD 0) s).setQueue q { s.queue q with slot := .filling false } with
        fetch := some ⟨q, (s.queue q).head, (s.queue q).ring.getD 0, false⟩ } : State).Balanced :=
      takeFetch_owes _ hset hidle
    exact grantAll_balanced (scheduler_balanced.settleClaim _ hissued)
  · exact settleDeferred_balanced h

/-! ## Every event -/

theorem exec_balanced {i : Instr} {s t : State} (hs : s.Balanced) (h : exec i s = .next t) : t.Balanced := by
  have hdue := settleDue_balanced hs
  have hrecord := settleRecord_balanced hs
  have hlook := settleLook_balanced hrecord
  have hcontrol (v : Reg) := unlessHeld_balanced (fun _ => writeControl_balanced v) hdue
  have hpost (v : Reg) := unlessHeld_balanced (fun _ => writePost_balanced v) hdue
  cases i <;> cases h
  case powerOnReset => exact reset_balanced.frame rfl
  case softReset v => exact hcontrol v
  case runWritten1 v => exact hcontrol v
  case runWritten0 v => exact hcontrol v
  case notifyEnable v => exact hcontrol v
  case flagsClear v => exact unlessHeld_balanced (f := writeFlags v) (fun _ ht => ht.frame rfl) hdue
  case registerWrite => exact portAccess_balanced _ hdue
  case misusedAccess => exact portAccess_balanced _ hdue
  case postWork v => exact hpost v
  case postAdmin v => exact hpost v
  case cqAck v => exact unlessHeld_balanced (fun _ => writeAck_balanced v) hdue
  case unknownOpcode => exact adminRow_balanced hs markRecord_balanced
  case setEngine => exact adminRow_balanced hs setEngine_balanced
  case configureQueue => exact adminRow_balanced hs configureQueue_balanced
  case enableQueue => exact adminRow_balanced hs enableQueue_balanced
  case disableQueue => exact adminRow_balanced hs disableQueue_balanced
  case disableQueueApplied => exact disableApplied_balanced hrecord
  case abortQueue => exact adminRow_balanced hs abortQueue_balanced
  case resumeQueue => exact adminRow_balanced hs resumeQueue_balanced
  case configureCq => exact adminRow_balanced hs configureCq_balanced
  case loadAperture => exact adminRow_balanced hs fun b => handUpdate_balanced _ b
  case clearAperture => exact adminRow_balanced hs fun b => handUpdate_balanced _ b
  case readStatistics => exact adminRow_balanced hs readStatistics_balanced
  case queryQueue => exact adminRow_balanced hs queryQueue_balanced
  case mark => exact adminRow_balanced hs markRecord_balanced
  case takeUp => exact takeUp_balanced hlook
  case fetchIssue => exact fetchIssue_balanced hlook
  case dataOrAckResponse => exact takeResponse_balanced _ _ hs
  case errorResponse => exact takeResponse_balanced _ _ hs
  case requestTimeout tag => exact takeTimeout_balanced tag hdue
  case lateResponse => exact takeResponse_balanced _ _ hs
  case strayResponse => exact takeResponse_balanced _ _ hs
  case ageTimerExpiry c => exact expireAge_balanced c hdue
  case stopGraceExpiry => exact expireGrace_balanced hdue

/-- Settles O56: the law is the balance of reservations and holders (`pendingListLaw_iff`), and every act that moves one of the two moves
the other with it. -/
theorem everyStepKeepsThePendingList : Obligations.EveryStepKeepsThePendingList := by
  intro s t hs h
  have hb : s.Balanced := (pendingListLaw_iff s).mp hs
  rw [pendingListLaw_iff]
  unfold step at h
  split at h
  · cases h
    exact settleDue_balanced hb
  · next c rest _ =>
    have hrest : ({ s with pending := rest } : State).Balanced := hb.frame rfl
    exact exec_balanced hrest h

end Sys2Proof.Machine
end

section
/-! PROOF. A failed fetch takes a queue out of DISABLED whose completion ring is UNCONFIGURED: the statement EveryStepKeepsRingsBound,
refuted. -/

namespace Sys2Proof.Machine

/-- A completion ring of 16 entries, ACTIVE and empty. -/
def emptyRing : Ring := { Ring.reset with state := .active, size := 16, phase := true, threshold := 1 }

/-- The fetch unit's read for WQ3 is out under tag 0, its entry bound for CQ1, and WQ3 is DISABLED on CQ2, which is UNCONFIGURED. No run
comes here, since a queue that becomes DISABLED has its slot emptied and its fetch withdrawn or cancelled (R59, R63); but none of the
statement's premises says so. -/
def strayFetch : State :=
  { State.reset.setTag 0 (.inUse .fetch .read 0 64 1000) with
    pending := [.errorResponse 0], run := true, engine := .running, adminRing := ⟨0, 8, 0, 0⟩
    rings := (State.reset.rings.set 0 emptyRing).set 1 emptyRing
    queues := State.reset.queues.set 2 { Queue.reset with ringSize := 8, level := 1, ring := some 2 }
    fetch := some ⟨2, 0, 1, true⟩, reserved := [⟨.fetch, 1⟩] }

theorem strayFetch_dueLaw : DueLaw strayFetch := ⟨nofun, nofun, fun h => absurd rfl h⟩

/-- What the step of `strayFetch` leaves. -/
def afterStrayFetch : State := takeResponse 0 .error { strayFetch with pending := [] }

theorem step_strayFetch : step strayFetch = .next afterStrayFetch := rfl

/-- The failed fetch HALTS its queue (R64), still bound to CQ2. -/
theorem afterStrayFetch_queue :
    (afterStrayFetch.queue 2).state = .halted ∧ (afterStrayFetch.queue 2).ring = some 2
      ∧ (afterStrayFetch.ring 2).state = .unconfigured := by decide

/-- Refutes O60: its premises leave out that a queue with a fetch in flight is not DISABLED. The error that answers such a fetch HALTS
the queue on a ring that is UNCONFIGURED (`strayFetch`), which BindingLaw forbids. -/
theorem not_everyStepKeepsRingsBound : ¬ Obligations.EveryStepKeepsRingsBound := by
  intro h
  have hbound : BindingLaw afterStrayFetch :=
    (h strayFetch afterStrayFetch (by decide) (by decide) (by decide) (by decide) strayFetch_dueLaw (by decide) step_strayFetch).1
  obtain ⟨-, -, -, -, henabled, -, -⟩ := hbound
  obtain ⟨hhalted, hring, hunconfigured⟩ := afterStrayFetch_queue
  exact (henabled 2 (by simp [hhalted])).2 2 hring hunconfigured

end Sys2Proof.Machine
end

section
/-! PROOF. STATUS field by field, and the notification line: the statement NotificationLineFollowsItsConditions. -/

namespace Sys2Proof.Machine

/-! ## Bits of a word -/

/-- A bit of a word, read off its number. -/
theorem getLsbD_of_mod {w : Reg} {k : Nat} {b : Bool} (h : w.toNat / 2 ^ k % 2 = b.toNat) : w.getLsbD k = b := by
  rw [← BitVec.testBit_toNat, Nat.testBit_eq_decide_div_mod_eq, h]
  cases b <;> rfl

/-! ## STATUS (R168, R178) -/

/-- The indications of STATUS, as one number: pending in its bits 0 to 3 or broken, ring by ring. -/
def ringBits (f : CqId → Bool) : Nat := (f 0).toNat + 2 * (f 1).toNat + 4 * (f 2).toNat + 8 * (f 3).toNat

theorem ringBits_lt (f : CqId → Bool) : ringBits f < 16 := by
  have := Bool.toNat_lt (f 0)
  have := Bool.toNat_lt (f 1)
  have := Bool.toNat_lt (f 2)
  have := Bool.toNat_lt (f 3)
  unfold ringBits
  omega

/-- Bit `c` of the number is ring `c`'s. -/
theorem ringBits_bit (f : CqId → Bool) (c : CqId) : ringBits f / 2 ^ c.val % 2 = (f c).toNat := by
  have h0 := Bool.toNat_lt (f 0)
  have h1 := Bool.toNat_lt (f 1)
  have h2 := Bool.toNat_lt (f 2)
  have h3 := Bool.toNat_lt (f 3)
  unfold ringBits
  fin_cases c <;> simp <;> omega

def pendingBits (s : State) : Nat := ringBits fun c => (s.ring c).pendingShown
def brokenBits (s : State) : Nat := ringBits fun c => (s.ring c).brokenShown

/-- STATUS as a number, with the bounds of its parts. -/
theorem statusWord_toNat (s : State) :
    (statusWord s).toNat = engineCode s.engine + 16 * causeCode s.cause + 64 * (s.engine == .failed).toNat
        + 128 * s.admin.isHalted.toNat + 256 * pendingBits s + 4096 * brokenBits s
    ∧ engineCode s.engine < 8 ∧ causeCode s.cause < 4 ∧ (s.engine == .failed).toNat < 2 ∧ s.admin.isHalted.toNat < 2
    ∧ pendingBits s < 16 ∧ brokenBits s < 16 := by
  have he : engineCode s.engine < 8 := by cases s.engine <;> decide
  have hc : causeCode s.cause < 4 := by cases s.cause <;> decide
  have hf := Bool.toNat_lt (s.engine == .failed)
  have ha := Bool.toNat_lt s.admin.isHalted
  have hp : pendingBits s < 16 := ringBits_lt _
  have hb : brokenBits s < 16 := ringBits_lt _
  refine ⟨?_, he, hc, hf, ha, hp, hb⟩
  have hword : statusWord s = BitVec.ofNat 32 (engineCode s.engine + 16 * causeCode s.cause + 64 * (s.engine == .failed).toNat
      + 128 * s.admin.isHalted.toNat + 256 * pendingBits s + 4096 * brokenBits s) := rfl
  rw [hword, BitVec.toNat_ofNat, Nat.mod_eq_of_lt (by omega)]

theorem statusWord_engine (s : State) : ((statusWord s).extractLsb' 0 3).toNat = engineCode s.engine := by
  obtain ⟨h, hbounds⟩ := statusWord_toNat s
  rw [BitVec.extractLsb'_toNat, h, Nat.shiftRight_zero]
  omega

theorem statusWord_cause (s : State) : ((statusWord s).extractLsb' 4 2).toNat = causeCode s.cause := by
  obtain ⟨h, hbounds⟩ := statusWord_toNat s
  rw [BitVec.extractLsb'_toNat, h, Nat.shiftRight_eq_div_pow]
  omega

theorem statusWord_failed (s : State) : (statusWord s).getLsbD 6 = true ↔ s.engine = .failed := by
  obtain ⟨h, hbounds⟩ := statusWord_toNat s
  have hbit : (statusWord s).toNat / 2 ^ 6 % 2 = (s.engine == .failed).toNat := by omega
  rw [getLsbD_of_mod hbit, beq_iff_eq]

theorem isHalted_iff (a : AdminState) : a.isHalted = true ↔ ∃ i, a = .halted i := by cases a <;> simp [AdminState.isHalted]

theorem statusWord_halted (s : State) : (statusWord s).getLsbD 7 = true ↔ ∃ i, s.admin = .halted i := by
  obtain ⟨h, hbounds⟩ := statusWord_toNat s
  have hbit : (statusWord s).toNat / 2 ^ 7 % 2 = s.admin.isHalted.toNat := by omega
  rw [getLsbD_of_mod hbit, isHalted_iff]

theorem statusWord_pending (s : State) (c : CqId) :
    (statusWord s).getLsbD (8 + c.val) = true ↔ (s.ring c).state ≠ .unconfigured ∧ (s.ring c).notifyPending = true := by
  obtain ⟨h, hbounds⟩ := statusWord_toNat s
  have hbit : (statusWord s).toNat / 2 ^ (8 + c.val) % 2 = (s.ring c).pendingShown.toNat := by
    rw [← ringBits_bit (fun c => (s.ring c).pendingShown) c, ← pendingBits]
    fin_cases c <;> simp <;> omega
  rw [getLsbD_of_mod hbit]
  simp [Ring.pendingShown]

theorem statusWord_broken (s : State) (c : CqId) :
    (statusWord s).getLsbD (12 + c.val) = true ↔ (s.ring c).state = .broken := by
  obtain ⟨h, hbounds⟩ := statusWord_toNat s
  have hbit : (statusWord s).toNat / 2 ^ (12 + c.val) % 2 = (s.ring c).brokenShown.toNat := by
    rw [← ringBits_bit (fun c => (s.ring c).brokenShown) c, ← brokenBits]
    fin_cases c <;> simp <;> omega
  rw [getLsbD_of_mod hbit]
  simp [Ring.brokenShown]

theorem statusWord_zero (s : State) {k : Nat} (hk : k = 3 ∨ 16 ≤ k) : (statusWord s).getLsbD k = false := by
  obtain ⟨h, hbounds⟩ := statusWord_toNat s
  rcases hk with rfl | hk
  · exact getLsbD_of_mod (b := false) (show _ = 0 by omega)
  · have hlt : (statusWord s).toNat < 2 ^ k :=
      Nat.lt_of_lt_of_le (show _ < 2 ^ 16 by omega) (Nat.pow_le_pow_right (by decide) hk)
    exact getLsbD_of_mod (b := false) (by simp [Nat.div_eq_of_lt hlt])

/-- One of the indications in bits 6 to 15 reads 1 (R168, R178). -/
theorem statusWord_indicates (s : State) :
    (∃ k, 6 ≤ k ∧ k ≤ 15 ∧ (statusWord s).getLsbD k = true) ↔
      (∃ c, (s.ring c).state ≠ .unconfigured ∧ (s.ring c).notifyPending = true) ∨ (∃ c, (s.ring c).state = .broken)
      ∨ (∃ i, s.admin = .halted i) ∨ s.engine = .failed := by
  constructor
  · rintro ⟨k, hlo, hhi, hk⟩
    have hplace : k = 6 ∨ k = 7 ∨ (∃ c : CqId, k = 8 + c.val) ∨ ∃ c : CqId, k = 12 + c.val := by
      by_cases h8 : k < 8
      · omega
      · by_cases h12 : k < 12
        · exact .inr (.inr (.inl ⟨⟨k - 8, by omega⟩, by simp; omega⟩))
        · exact .inr (.inr (.inr ⟨⟨k - 12, by omega⟩, by simp; omega⟩))
    rcases hplace with rfl | rfl | ⟨c, rfl⟩ | ⟨c, rfl⟩
    · exact .inr (.inr (.inr ((statusWord_failed s).mp hk)))
    · exact .inr (.inr (.inl ((statusWord_halted s).mp hk)))
    · exact .inl ⟨c, (statusWord_pending s c).mp hk⟩
    · exact .inr (.inl ⟨c, (statusWord_broken s c).mp hk⟩)
  · rintro (⟨c, h⟩ | ⟨c, h⟩ | h | h)
    · exact ⟨8 + c.val, by omega, by omega, (statusWord_pending s c).mpr h⟩
    · exact ⟨12 + c.val, by omega, by omega, (statusWord_broken s c).mpr h⟩
    · exact ⟨7, by omega, by omega, (statusWord_halted s).mpr h⟩
    · exact ⟨6, by omega, by omega, (statusWord_failed s).mpr h⟩

/-- While RESET_N is high, offset 8 reads STATUS (R178, R180). -/
theorem readRegister_status {s : State} (h : s.heldEvents = 0) : readRegister s ⟨false, 4, 0x08, 0⟩ = statusWord s := by
  simp [readRegister, h, wellFormedAccess, registerValue]

/-! ## The notification line (R123, R180) -/

theorem mem_allRings (c : CqId) : c ∈ allRings := by revert c; decide

theorem notifyAsserted_iff (s : State) :
    notifyAsserted s = true ↔
      s.heldEvents = 0 ∧ s.notifyEnable = true
      ∧ ((∃ c, (s.ring c).notifyPending = true) ∨ (∃ c, (s.ring c).state = .broken) ∨ (∃ i, s.admin = .halted i)
        ∨ s.engine = .failed) := by
  simp [notifyAsserted, mem_allRings, isHalted_iff, State.ring, or_assoc, and_assoc]

/-- A ring that is UNCONFIGURED asks for no attention, so a ring's notify pending is one that STATUS shows (R124). -/
theorem RingLaw.pending_iff {s : State} (h : RingLaw s) (c : CqId) :
    (s.ring c).notifyPending = true ↔ (s.ring c).state ≠ .unconfigured ∧ (s.ring c).notifyPending = true := by
  refine ⟨fun hp => ⟨fun hu => ?_, hp⟩, And.right⟩
  obtain ⟨hn, -⟩ := h c hu
  simp [hp] at hn

/-- Settles O9: the line by `notifyAsserted_iff`, and STATUS as a sum of its fields, each read off its own bits. -/
theorem notificationLineFollowsItsConditions : Obligations.NotificationLineFollowsItsConditions := by
  refine ⟨notifyAsserted_iff, fun s hlaw => ?_, fun s hheld => ?_⟩
  · rw [notifyAsserted_iff]
    refine and_congr_right fun hheld => and_congr_right fun _ => ?_
    rw [readRegister_status hheld, statusWord_indicates]
    simp only [← RingLaw.pending_iff hlaw]
  · rw [readRegister_status hheld]
    exact ⟨(statusWord_engine s).trans (by cases s.engine <;> rfl), (statusWord_cause s).trans (by cases s.cause <;> rfl),
      statusWord_failed s, statusWord_halted s, fun c => ⟨statusWord_pending s c, statusWord_broken s c⟩,
      fun k => statusWord_zero s⟩

end Sys2Proof.Machine
end

section
/-! PROOF. A write of CQ_ACK is checked by the ring it names: the statement CompletionAckIsChecked. -/

namespace Sys2Proof.Machine

/-- Check 2 of R116: the new head lies in ring order from the ring's head up to its tail. -/
theorem ackAccepted_iff {r : Ring} (new : Nat) (hs : r.state ≠ .unconfigured) (h : r.head < r.size) :
    ackAccepted r new = true ↔ new < r.size ∧ ((new : Int) - r.head) % r.size ≤ ((r.tail : Int) - r.head) % r.size := by
  rw [← postedCount_eq_emod new h, ← postedCount_eq_emod r.tail h, Int.ofNat_le]
  simp [ackAccepted, hs]

theorem ackAccepted_unconfigured {r : Ring} (new : Nat) (hs : r.state = .unconfigured) : ackAccepted r new = false := by
  simp [ackAccepted, hs]

theorem writeAck_misnamed {n r : BitVec 8} (new : BitVec 16) (s : State) (h : r ≠ 0 ∨ 3 < n.toNat) :
    writeAck (n ++ r ++ new) s = rejectAck s := by
  have hr : r.toNat ≠ 0 ↔ r ≠ 0 := not_congr (BitVec.toNat_inj (y := 0))
  rw [writeAck, portReserved_append, portNumber_append, if_pos (by rwa [hr])]

/-- The ring that a well-formed CQ_ACK names judges it (R116). -/
theorem writeAck_named {n r : BitVec 8} {c : CqId} (new : BitVec 16) (s : State) (hn : n.toNat = c.val) (hr : r = 0) :
    writeAck (n ++ r ++ new) s
      = if ackAccepted (s.ring c) new.toNat = true then acceptAck c new.toNat s else rejectAck s := by
  have hc : Fin.ofNat 4 c.val = c := Fin.ofNat_val_eq_self c
  have hlt := c.isLt
  rw [writeAck, portReserved_append, portNumber_append, portIndex_append, hn, hc, if_neg (by simp [hr]; omega)]

/-- With nothing due and RESET_N high, the row of CQ_ACK is the write of its register. -/
theorem exec_cqAck {s : State} (h : Ready s) (v : Reg) : exec (.cqAck v) s = .next (writeAck v s) := by
  show Host.Outcome.next (unlessHeld (writeAck v) (settleDue s)) = _
  rw [settleDue_of_nothingDue h.2, unlessHeld_high _ h.1]

/-- Settles O14: the fields name a ring or none (`writeAck_misnamed`, `writeAck_named`), and the ring's verdict is `ackAccepted_iff`. -/
theorem completionAckIsChecked : Obligations.CompletionAckIsChecked := by
  intro n r new s hready rejected
  rw [exec_cqAck hready]
  refine ⟨fun hbad => ?_, ?_⟩
  · rw [writeAck_misnamed new s hbad]
    rfl
  · intro c hn hr
    rw [writeAck_named new s hn hr]
    refine ⟨fun hs => ?_, fun hs hhead _ => ?_⟩
    · rw [if_neg (by simp [ackAccepted_unconfigured _ hs])]
      rfl
    · have hverdict := ackAccepted_iff new.toNat hs hhead
      split
      · next hok =>
        rw [if_pos (hverdict.mpr hok)]
        exact ⟨_, rfl, rfl⟩
      · next hbad =>
        rw [if_neg (mt hverdict.mp hbad)]
        rfl

end Sys2Proof.Machine
end

section
/-! PROOF. DISABLE QUEUE on a queue with a context: the statement DisableQueueRequestsTheDrain. -/

namespace Sys2Proof.Machine

/-! ## The row of a checked record (R132, R135) -/

/-- A record that passes checks 1 to 4 is refused by the state alone. -/
theorem adminCheck_of_recordOk {s : State} {b : List Byte} (h : recordOk b = true) :
    adminCheck s b = (stateRefusal s b).map fun st => (st, .none) := by
  cases hrow : opcodeRow (adminOpcode b) with
  | none => simp only [recordOk, hrow, Bool.false_eq_true] at h
  | some row =>
    simp only [recordOk, hrow, Bool.and_eq_true] at h
    obtain ⟨⟨hreserved, hindex⟩, hparameters⟩ := h
    simp only [adminCheck, hrow, hreserved, hindex, hparameters, Bool.not_true, Bool.false_eq_true, if_false]
    cases stateRefusal s b <;> rfl

/-- The state refuses no DISABLE QUEUE (R135 check 5). -/
theorem stateRefusal_disable {s : State} {b : List Byte} (hop : adminOpcode b = opDisableQueue) : stateRefusal s b = none := by
  simp only [stateRefusal, hop]
  rfl

theorem adminQueue_of_index {b : List Byte} {q : WqId} (h : adminIndex b = q.val + 1) : adminQueue b = q := by
  rw [adminQueue, h]
  exact Fin.ofNat_val_eq_self q

/-- DISABLE QUEUE's own row carries the record just checked out. -/
theorem exec_disableQueue {s : State} {b : List Byte} (h : Holds 0x04 b s) :
    exec .disableQueue s = .next (finishStep (selectOnFree s (disableQueue b s))) := by
  obtain ⟨hadmin, hop, hok⟩ := h
  have hrow : adminRow (isOp opDisableQueue) disableQueue s = executeRecord (adminCheck s b) disableQueue b s :=
    adminRow_checked hadmin (by rw [hop]; rfl)
  have hpasses : adminCheck s b = none := by rw [adminCheck_of_recordOk hok, stateRefusal_disable hop]; rfl
  show Host.Outcome.next (adminRow (isOp opDisableQueue) disableQueue s) = _
  rw [hrow, hpasses]
  rfl

/-! ## The look of a DISABLE QUEUE that waits (R143) -/

theorem exec_disableQueueApplied {s : State} {b : List Byte} {q : WqId} (h : s.admin = .executing b (.waitEntry q)) :
    exec .disableQueueApplied s = .next (disableApplied s) := by
  show Host.Outcome.next (disableApplied (settleRecord s)) = _
  rw [settleRecord_of_none (by simp [h])]

/-- A look that finds the DISABLE QUEUE free to be applied. -/
theorem disableApplied_of_some {s t : State} {b : List Byte} {q : WqId} (h : s.admin = .executing b (.waitEntry q))
    (ht : applyDisable b q s = some t) : disableApplied s = finishStep (afterClaims .disableQueueApplied s t) := by
  have hclaims : afterClaims .disableQueueApplied s t = if s.claimDeferred then settleClaim s t else selectOnFree s t := by
    cases hd : s.claimDeferred <;> simp [afterClaims, settleClaim, hd]
  have hlook : lookAgain s = some (finishStep (if s.claimDeferred then settleClaim s t else selectOnFree s t)) := by
    simp only [lookAgain, h, ht]
  rw [disableApplied, hlook, hclaims]

theorem disableApplied_of_none {s : State} {b : List Byte} {q : WqId} (h : s.admin = .executing b (.waitEntry q))
    (ht : applyDisable b q s = none) : disableApplied s = settleDeferred s := by
  have hlook : lookAgain s = none := by simp only [lookAgain, h, ht]
  rw [disableApplied, hlook]

/-! ## The table of R143 -/

section
variable {b : List Byte} {q : WqId} {s : State}

/-- Either row applies the DISABLE QUEUE to its queue, and the step ends with the claims of a freed entry. -/
theorem disable_applied {i : Instr} {t : State}
    (hi : (i = .disableQueue ∧ Holds 0x04 b s ∧ adminIndex b = q.val + 1)
      ∨ (i = .disableQueueApplied ∧ s.admin = .executing b (.waitEntry q)))
    (ht : applyDisable b q s = some t) : ∃ u, exec i s = .next u ∧ EndsAs (afterClaims i s t) u := by
  rcases hi with ⟨rfl, hholds, hq⟩ | ⟨rfl, hwaits⟩
  · have hrun : disableQueue b s = t := by simp only [disableQueue, adminQueue_of_index hq, ht]
    refine ⟨_, exec_disableQueue hholds, ?_⟩
    rw [hrun]
    rfl
  · exact ⟨_, exec_disableQueueApplied hwaits, disableApplied_of_some hwaits ht⟩

variable (hq : (s.queue q).state = .running ∨ (s.queue q).state = .suspended)
include hq

theorem applyDisable_settled (h : (s.queue q).drain = true ∨ s.engine = .stopping) :
    applyDisable b q s = some (withCompletion s b .ok .deferred 0) := by
  rw [← completeAdmin_eq_withCompletion]
  by_cases hd : (s.queue q).drain = true
  · rcases hq with hs | hs <;> simp [applyDisable, hs, hd]
  · have he := h.resolve_left hd
    rcases hq with hs | hs <;> simp [applyDisable, hs, hd, he]

theorem applyDisable_drains (hd : (s.queue q).drain = false) (he : s.engine ≠ .stopping) (hf : 0 < freeEntries s) :
    applyDisable b q s = some (withCompletion (drainRequested q s) b .ok .deferred 0) := by
  rw [← completeAdmin_eq_withCompletion]
  rcases hq with hs | hs <;> simp [applyDisable, hs, hd, he, hasFree, hf, drainRequested]

theorem applyDisable_waits (hd : (s.queue q).drain = false) (he : s.engine ≠ .stopping) (hf : freeEntries s = 0) :
    applyDisable b q s = none :=
  (applyDisable_eq_none_iff b q s).mpr ⟨(drainNeedsEntry_iff s q).mpr ⟨hq, hd, he⟩, by simp [hasFree, hf]⟩

end

/-- Settles O21: both rows apply the DISABLE QUEUE (`disable_applied`), and what comes of that is R143's table, `applyDisable_settled`,
`applyDisable_drains` and `applyDisable_waits`. -/
theorem disableQueueRequestsTheDrain : Obligations.DisableQueueRequestsTheDrain := by
  intro i b q s hi hq
  refine ⟨fun h => ?_, fun hd he hf => ?_, fun hd he hf => ⟨?_, ?_⟩⟩
  · exact disable_applied hi (applyDisable_settled hq h)
  · exact disable_applied hi (applyDisable_drains hq hd he hf)
  · rintro rfl
    obtain ⟨-, hholds, hindex⟩ | ⟨h, -⟩ := hi
    · have hrun : disableQueue b s = waitFor b (.waitEntry q) s := by
        simp only [disableQueue, adminQueue_of_index hindex, applyDisable_waits hq hd he hf]
      refine ⟨_, exec_disableQueue hholds, ?_⟩
      have hfree : selectOnFree s (waitFor b (.waitEntry q) s) = waitFor b (.waitEntry q) s :=
        selectOnFree_of_le (Nat.le_refl (freeEntries s))
      rw [hrun, hfree]
      rfl
    · cases h
  · rintro rfl
    obtain ⟨h, -⟩ | ⟨-, hwaits⟩ := hi
    · cases h
    · rw [exec_disableQueueApplied hwaits, disableApplied_of_none hwaits (applyDisable_waits hq hd he hf)]
      rfl

end Sys2Proof.Machine
end

section
/-! PROOF. The writes of a statistics block or queue report: the statement BlockWritesCompleteTheCommand. -/

namespace Sys2Proof.Machine

/-- The first failure stands; before one, an ACK is none and anything else is write `k`'s (R151). -/
theorem writeFailureAfter_eq {ws : List AdminWrite} {k : Nat} {w : AdminWrite} (f : Option WriteFailure) (r : Resolution)
    (hk : ws[k]? = some w) :
    writeFailureAfter ws f k r =
      match f with
      | some e => some e
      | none => if r = .ack then none else some ⟨r == .timeout, w.address⟩ := by
  cases f with
  | some e => rfl
  | none => cases r <;> simp [writeFailureAfter, hk]

/-- With a failure the writes are settled when none is out, without one when all have resolved (R151). -/
theorem writesSettled_iff (ws : List AdminWrite) (f : Option WriteFailure) :
    writesSettled ws f = true ↔
      match f with
      | some _ => ∀ v ∈ ws, v.progress ≠ .issued
      | none => ∀ v ∈ ws, v.progress = .resolved := by
  cases f <;> simp [writesSettled]

/-- Whether an entry has become free is a question of the pending list alone. -/
theorem selectOnFree_congr {a a' : State} (s : State) (h : freeEntries a = freeEntries a') :
    selectOnFree a s = selectOnFree a' s := by
  simp only [selectOnFree, h]

/-- The writes of a block or report with write `k` resolved (R151). -/
def resolveWrite (k : Nat) (ws : List AdminWrite) : List AdminWrite := ws.modify k fun w => { w with progress := .resolved }

/-- `x` after the completion of the record `b` with its writes settled (R151, R152). -/
def writesCompleted (x : State) (b : List Byte) : Option WriteFailure → State
  | none => withCompletion x b .ok .none 0
  | some e => withCompletion x b (if e.timeout then .memTimeout else .memError) .none e.address

section
variable {k : Nat} {r : Resolution} {b : List Byte} {ws : List AdminWrite} {f : Option WriteFailure} {x : State}

theorem adminWriteTakes_unsettled (ha : x.admin = .executing b (.writing ws f))
    (h : writesSettled (resolveWrite k ws) (writeFailureAfter ws f k r) = false) :
    adminWriteTakes k r x = { x with admin := .executing b (.writing (resolveWrite k ws) (writeFailureAfter ws f k r)) } := by
  rw [resolveWrite] at h ⊢
  simp [adminWriteTakes, ha, h]

theorem adminWriteTakes_settled (ha : x.admin = .executing b (.writing ws f))
    (h : writesSettled (resolveWrite k ws) (writeFailureAfter ws f k r) = true) :
    adminWriteTakes k r x = selectOnFree x (writesCompleted x b (writeFailureAfter ws f k r)) := by
  rw [resolveWrite] at h
  simp only [adminWriteTakes, ha, h, if_true, completeAdmin_eq_withCompletion]
  cases writeFailureAfter ws f k r <;> rfl

end

theorem handed_admin (tg : TagId) (r : Resolution) (s : State) : (handed tg r s).admin = s.admin := by cases r <;> rfl

theorem handed_freeEntries (tg : TagId) (r : Resolution) (s : State) : freeEntries (handed tg r s) = freeEntries s := by
  cases r <;> rfl

/-- A WRITE's owner is handed the ACK, ERROR or TIMEOUT as it is (R90). -/
theorem takenAs_write {r : Resolution} (n : Nat) (h : r = .ack ∨ r = .error ∨ r = .timeout) : takenAs .write n r = r := by
  rcases h with rfl | rfl | rfl <;> rfl

/-- Settles O41: the admin unit is handed the resolution (`exec_answerOf`), and its writes are then unsettled
(`adminWriteTakes_unsettled`) or settled (`adminWriteTakes_settled`). -/
theorem blockWritesCompleteTheCommand : Obligations.BlockWritesCompleteTheCommand := by
  intro tg r k ad n tm b ws w s hready htag hk _ ws' f hadmin hr f' x settled
  have hx : x.admin = .executing b (.writing ws f) := (handed_admin tg r s).trans hadmin
  have hf : writeFailureAfter ws f k r = f' := writeFailureAfter_eq f r hk
  have hsettled : writesSettled ws' (writeFailureAfter ws f k r) = true ↔ settled := hf ▸ writesSettled_iff ws' f'
  obtain ⟨t, ht, hends⟩ := exec_answerOf r hready htag
  rw [takenAs_write n hr] at hends
  refine ⟨fun h => ⟨t, ht, ?_⟩, fun h => ⟨t, ht, ?_⟩⟩
  · have htakes : adminWriteTakes k r x = _ := adminWriteTakes_unsettled hx (Bool.eq_false_iff.mpr (mt hsettled.mp h))
    rw [← hf]
    exact htakes ▸ hends
  · have htakes : adminWriteTakes k r x = _ := adminWriteTakes_settled hx (hsettled.mpr h)
    rw [← hf, ← selectOnFree_congr _ (handed_freeEntries tg r s)]
    exact htakes ▸ hends

end Sys2Proof.Machine
end

section
/-! PROOF. The timers' expiries and how a stop goes on: the statement TimersExpire. -/

namespace Sys2Proof.Machine

/-! ## No entry's write goes out once the grace has expired or no entry is left (R111, R125) -/

/-- The completion unit asks for nothing, and will not while the list stands. -/
def Silent (s : State) : Prop := s.graceTimer = .expired ∨ s.occupied = []

theorem Silent.completionAsk {s : State} (h : Silent s) : completionAsk s = none :=
  completionAsk_none (h.imp_right fun he => by simp [oldestReady, he])

/-- The note that another client's request is out leaves the list alone. -/
theorem markIssued_occupied {o : Owner} (s : State) (h : ∀ c, o ≠ .completion c) : (markIssued o s).occupied = s.occupied := by
  cases o with
  | completion c => exact absurd rfl (h c)
  | rootRead => rfl
  | adminRecord => simp only [markIssued]; split <;> rfl
  | adminWrite k => simp only [markIssued]; split <;> rfl
  | fetch => simp only [markIssued]; split <;> rfl
  | mover k => simp only [markIssued]; split <;> rfl

theorem moverAsk_owner {s : State} {a : Ask} (h : moverAsk s = some a) (c : CqId) : a.owner ≠ .completion c := by
  unfold moverAsk at h
  split at h
  · split at h
    · cases h
    · split at h
      · cases h; nofun
      · cases h
  · cases h

/-- Where the completion unit asks for nothing, another client is served. -/
theorem nextGrant_owner_ne {s : State} {a : Ask} (h : nextGrant s = some a) (hn : completionAsk s = none) (c : CqId) :
    a.owner ≠ .completion c := by
  have hfree : freeTags s ≠ 0 := fun h0 => by simp [nextGrant, h0] at h
  rw [nextGrant_eq hfree, hn, Option.none_or, Option.or_eq_some_iff, Option.or_eq_some_iff] at h
  rcases h with h | ⟨_, h | ⟨_, h⟩⟩
  · rcases adminAsk_owner h with ho | ho | ⟨k, ho⟩ <;> simp [ho]
  · simp [fetchAsk_owner h]
  · split at h
    · exact moverAsk_owner h c
    · cases h

theorem grantOne_silent {s t : State} (h : Silent s) (ht : grantOne s = some t) : t.occupied = s.occupied ∧ Silent t := by
  have hocc : t.occupied = s.occupied := by
    unfold grantOne at ht
    split at ht
    · next a g ha _ =>
      cases ht
      exact markIssued_occupied _ (nextGrant_owner_ne ha h.completionAsk)
    · cases ht
  obtain ⟨-, -, -, -, -, -, -, -, -, -, hgrace, -⟩ := (grantOne_onlyIssues ht).fields
  exact ⟨hocc, h.imp hgrace.trans hocc.trans⟩

theorem grantLoop_silent (n : Nat) {s : State} (h : Silent s) : (grantLoop n s).occupied = s.occupied := by
  induction n generalizing s with
  | zero => rfl
  | succ n ih =>
    unfold grantLoop
    split
    · next t ht =>
      obtain ⟨hocc, hsilent⟩ := grantOne_silent h ht
      exact (ih hsilent).trans hocc
    · rfl

/-! ## The engine at rest (R158, R164, R165) -/

theorem unitsIdle_iff (s : State) :
    unitsIdle s = true ↔ s.active = none ∧ s.segment = none ∧ s.fetch = none ∧ (s.admin = .idle ∨ ∃ i, s.admin = .halted i) := by
  simp only [unitsIdle, Bool.and_eq_true, Option.isNone_iff_eq_none, and_assoc]
  cases s.admin <;> simp

/-- The start, or its failure on the root address (R158). -/
theorem enterStarting_eq (s : State) :
    enterStarting s =
      if (s.rootHi ++ s.rootLo).toNat % 64 = 0 ∧ (s.rootHi ++ s.rootLo).toNat < 2 ^ 48 then
        { s with engine := .starting, cause := .none, rootInUse := s.rootHi ++ s.rootLo, rootRead := .waiting }
      else { s with engine := .failed, cause := .rootInvalid, rootInUse := s.rootHi ++ s.rootLo } := by
  have hok : rootAddressOk (rootAddress s) = true ↔ (s.rootHi ++ s.rootLo).toNat % 64 = 0 ∧ (s.rootHi ++ s.rootLo).toNat < 2 ^ 48 := by
    simp only [rootAddressOk, Bool.and_eq_true, beq_iff_eq, decide_eq_true_eq]
    rfl
  exact if_congr hok rfl rfl

/-- STOPPED, before a RUN of 1 is looked at (R113, R129, R165). -/
def atRest (s : State) : State :=
  { s.setRing 0 (unconfiguredRing (s.ring 0)) with
    engine := .stopped, graceTimer := .stopped, adminRing := AdminRing.reset
    admin := match s.admin with | .halted _ => .idle | a => a }

/-- STOPPED is reached, and with RUN 1 left at once for STARTING, or for FAILED on a root address that is not good (R158, R165). -/
theorem reachStopped_eq (s : State) :
    reachStopped s =
      if s.run = false then atRest s
      else if (s.rootHi ++ s.rootLo).toNat % 64 = 0 ∧ (s.rootHi ++ s.rootLo).toNat < 2 ^ 48 then
        { atRest s with engine := .starting, cause := .none, rootInUse := s.rootHi ++ s.rootLo, rootRead := .waiting }
      else { atRest s with engine := .failed, cause := .rootInvalid, rootInUse := s.rootHi ++ s.rootLo } := by
  have hrest : reachStopped s = if s.run = true then enterStarting (atRest s) else atRest s := rfl
  cases hr : s.run
  · rw [hrest, if_neg (by simp [hr]), if_pos rfl]
  · rw [hrest, if_pos hr, if_neg (by simp), enterStarting_eq]
    rfl

theorem reachStopped_occupied (s : State) : (reachStopped s).occupied = s.occupied := by
  have hstart (u : State) : (enterStarting u).occupied = u.occupied := by
    unfold enterStarting
    dsimp only
    split <;> rfl
  have hrest : reachStopped s = if s.run = true then enterStarting (atRest s) else atRest s := rfl
  rw [hrest]
  split
  · exact hstart (atRest s)
  · rfl

/-- What is dropped shows in the list and its count alone (R125). -/
theorem reachStopped_dropOccupied (s : State) :
    reachStopped (dropOccupied s) =
      { reachStopped s with occupied := (dropOccupied s).occupied, counters := (dropOccupied s).counters } := by
  have hrun : (dropOccupied s).run = s.run := rfl
  have hhi : (dropOccupied s).rootHi = s.rootHi := rfl
  have hlo : (dropOccupied s).rootLo = s.rootLo := rfl
  rw [reachStopped_eq, reachStopped_eq, hrun, hhi, hlo]
  split_ifs <;> rfl

/-! ## How a stop goes on (R125, R164, R165) -/

section
variable {s : State} (he : s.engine = .stopping)
include he

theorem stopProgress_waits (hg : s.graceTimer = .stopped) (hi : unitsIdle s = false) : stopProgress s = s := by
  simp [stopProgress, he, hg, hi]

theorem stopProgress_starts (hg : s.graceTimer = .stopped) (hi : unitsIdle s = true) (ho : s.occupied ≠ []) :
    stopProgress s = { s with graceTimer := .running s.stopGrace } := by
  simp [stopProgress, he, hg, hi, ho]

theorem stopProgress_runs {ms : Nat} (hg : s.graceTimer = .running ms) (ho : s.occupied ≠ []) : stopProgress s = s := by
  simp [stopProgress, he, hg, ho]

theorem stopProgress_done (h : (s.graceTimer = .stopped ∧ unitsIdle s = true) ∨ ∃ ms, s.graceTimer = .running ms)
    (ho : s.occupied = []) : stopProgress s = reachStopped s := by
  rcases h with ⟨hg, hi⟩ | ⟨ms, hg⟩
  · unfold stopProgress
    rw [if_pos he, if_pos ⟨hg, hi⟩]
    exact if_pos (by simp [ho])
  · simp [stopProgress, he, hg, ho]

theorem stopProgress_expired_waits (hg : s.graceTimer = .expired) (ho : ∃ o ∈ s.occupied, o.inFlight = true) :
    stopProgress s = s := by
  have hany : (s.occupied.any fun o => o.inFlight) = true := by simpa using ho
  simp [stopProgress, he, hg, hany]

theorem stopProgress_expired_done (hg : s.graceTimer = .expired) (ho : ∀ o ∈ s.occupied, o.inFlight = false) :
    stopProgress s = reachStopped (dropOccupied s) := by
  have hnone : ¬ (s.occupied.any fun o => o.inFlight) = true := by simpa using ho
  simp [stopProgress, he, hg, hnone]

end

/-- Once the grace has expired, the end of the step puts no entry's write in flight (R125). -/
theorem finishStep_expired {s : State} (hg : s.graceTimer = .expired) : ∀ o ∈ (finishStep s).occupied, o ∈ s.occupied := by
  have hsilent : Silent (stopProgress s) ∧ ∀ o ∈ (stopProgress s).occupied, o ∈ s.occupied := by
    by_cases he : s.engine = .stopping
    · by_cases ho : ∃ o ∈ s.occupied, o.inFlight = true
      · rw [stopProgress_expired_waits he hg ho]
        exact ⟨.inl hg, fun _ => id⟩
      · have hempty : (reachStopped (dropOccupied s)).occupied = [] := reachStopped_occupied _
        rw [stopProgress_expired_done he hg (by simpa using ho)]
        exact ⟨.inr hempty, by simp [hempty]⟩
    · rw [stopProgress_of_not_stopping he]
      exact ⟨.inl hg, fun _ => id⟩
  rw [finishStep, grantAll, grantLoop_silent 32 hsilent.1]
  exact hsilent.2

/-! ## The statement -/

theorem exec_ageTimerExpiry {s : State} (hd : NothingDue s) (c : CqId) : exec (.ageTimerExpiry c) s = .next (expireAge c s) := by
  show Host.Outcome.next (expireAge c (settleDue s)) = _
  rw [settleDue_of_nothingDue hd]

theorem exec_stopGraceExpiry {s : State} (hd : NothingDue s) : exec .stopGraceExpiry s = .next (expireGrace s) := by
  show Host.Outcome.next (expireGrace (settleDue s)) = _
  rw [settleDue_of_nothingDue hd]

/-- Settles O49: each expiry is the row's own, and a stop goes on by the state of the grace timer, the units and the list, case by case. -/
theorem timersExpire : Obligations.TimersExpire := by
  refine ⟨fun c us s hd ha => ?_, fun ms s hd hg => ?_, fun s => ?_⟩
  · rw [exec_ageTimerExpiry hd]
    simp only [expireAge, ha]
  · have hexpire : expireGrace s = finishStep { s with graceTimer := .expired } := by simp only [expireGrace, hg]
    refine ⟨_, exec_stopGraceExpiry hd, ?_, fun o ho _ => ?_⟩
    · rw [hexpire]
      rfl
    · rw [hexpire] at ho
      exact finishStep_expired (s := { s with graceTimer := .expired }) rfl o ho
  · intro idle stopped root restarted
    have hidle : unitsIdle s = true ↔ idle := unitsIdle_iff s
    have hrestarted : reachStopped s = restarted := reachStopped_eq s
    refine ⟨stopProgress_of_not_stopping, fun he hg hi => ?_, fun he hg hi ho => ?_, fun ms he hg ho => ?_, fun he h ho => ?_,
      fun he hg ho => ?_, fun he hg ho => ?_⟩
    · exact stopProgress_waits he hg (Bool.eq_false_iff.mpr (mt hidle.mp hi))
    · exact stopProgress_starts he hg (hidle.mpr hi) ho
    · exact stopProgress_runs he hg ho
    · rw [stopProgress_done he (h.imp_left fun h => ⟨h.1, hidle.mpr h.2⟩) ho, hrestarted]
    · exact stopProgress_expired_waits he hg ho
    · rw [stopProgress_expired_done he hg ho, reachStopped_dropOccupied, hrestarted]
      rfl

end Sys2Proof.Machine
end

section
/-! PROOF. The checks of an admin record in their order (R135, R174), each with what it finds, and the row that completes a
checked record or carries it out: the statements AdminRefusalIsOnlyACompletion, UnknownOpcodeAndMarkOnlyComplete and
SetEngineReplacesTheSettings. -/

namespace Sys2Proof.Machine

/-! ## Bytes that are not zero -/

theorem getD_slice (b : List Byte) (lo n k : Nat) : (slice b lo n).getD k 0 = if k < n then b.getD (lo + k) 0 else 0 := by
  rw [slice, List.getD_eq_getElem?_getD, List.getElem?_take, List.getElem?_drop]
  split <;> simp

theorem not_allZero_iff (l : List Byte) : ¬ allZero l = true ↔ ∃ k, l.getD k 0 ≠ 0 := by
  rw [allZero_iff, List.forall_mem_iff_getElem, not_forall]
  refine exists_congr fun k => ?_
  rcases Nat.lt_or_ge k l.length with h | h
  · simp [h]
  · simp [Nat.not_lt.mpr h]

theorem someByte_iff {b : List Byte} {lo hi : Nat} : someByte b lo hi ↔ ∃ off, off < hi ∧ lo ≤ off ∧ b.getD off 0 ≠ 0 := by
  simp only [someByte, List.mem_range]

theorem not_allZero_slice_iff (b : List Byte) (lo n : Nat) : ¬ allZero (slice b lo n) = true ↔ someByte b lo (lo + n) := by
  rw [not_allZero_iff, someByte_iff]
  constructor
  · rintro ⟨k, hk⟩
    rw [getD_slice] at hk
    split at hk
    · next hlt => exact ⟨lo + k, by omega, Nat.le_add_right lo k, hk⟩
    · exact absurd rfl hk
  · rintro ⟨off, hoff, hlo, hbyte⟩
    refine ⟨off - lo, ?_⟩
    rwa [getD_slice, if_pos (by omega), Nat.add_sub_cancel' hlo]

theorem someByte_split {b : List Byte} {lo mid hi : Nat} (hlo : lo ≤ mid) (hhi : mid ≤ hi) :
    someByte b lo hi ↔ someByte b lo mid ∨ someByte b mid hi := by
  rw [someByte_iff, someByte_iff, someByte_iff]
  constructor
  · rintro ⟨off, hoff, hle, hbyte⟩
    rcases Nat.lt_or_ge off mid with h | h
    · exact .inl ⟨off, h, hle, hbyte⟩
    · exact .inr ⟨off, hoff, h, hbyte⟩
  · rintro (⟨off, hoff, hle, hbyte⟩ | ⟨off, hoff, hle, hbyte⟩)
    · exact ⟨off, by omega, hle, hbyte⟩
    · exact ⟨off, hoff, by omega, hbyte⟩

/-- With no parameter placed, the reserved bytes and the parameters are one run. -/
theorem someByte_reserved_or {b : List Byte} {p : Prop} : someByte b 6 8 ∨ someByte b 8 64 ∨ p ↔ someByte b 6 64 ∨ p := by
  rw [← or_assoc, ← someByte_split (by decide) (by decide)]

/-! ## Check 2: reserved parts (R135, R174) -/

/-- A parameter byte outside the placed fields is not zero. -/
def unplacedByte (placed : List (Nat × Nat)) (b : List Byte) : Prop :=
  ∃ off ∈ parameterOffsets, isPlaced placed off = false ∧ b.getD off 0 ≠ 0

/-- Placed fields that fill the parameters up to an offset leave the bytes from there on. -/
theorem unplacedByte_iff {placed : List (Nat × Nat)} {b : List Byte} {free : Nat} (h8 : 8 ≤ free)
    (hp : ∀ off ∈ parameterOffsets, isPlaced placed off = decide (off < free)) : unplacedByte placed b ↔ someByte b free 64 := by
  rw [someByte_iff]
  constructor
  · rintro ⟨off, hoff, hfree, hbyte⟩
    rw [hp off hoff, decide_eq_false_iff_not] at hfree
    have := List.mem_range'_1.mp hoff
    exact ⟨off, by omega, by omega, hbyte⟩
  · rintro ⟨off, hhi, hfree, hbyte⟩
    have hoff : off ∈ parameterOffsets := List.mem_range'_1.mpr (by omega)
    exact ⟨off, hoff, by rw [hp off hoff]; simpa using hfree, hbyte⟩

/-- What check 2 finds, whatever the row. -/
theorem not_adminReservedOk_iff (row : OpcodeRow) (b : List Byte) :
    ¬ adminReservedOk row b = true ↔
      someByte b 6 8 ∨ (row.index = none ∧ adminIndex b ≠ 0) ∨ 2 ^ row.optionBits ≤ field b 2 2 ∨ unplacedByte row.placed b
      ∨ (adminOpcode b = opLoadAperture ∧ 4 ≤ field b 10 1) := by
  have hoptions : ¬ adminOptions b / 2 ^ row.optionBits = 0 ↔ 2 ^ row.optionBits ≤ field b 2 2 := by
    rw [Nat.div_eq_zero_iff_lt (Nat.two_pow_pos _), Nat.not_lt, adminOptions]
  have hplaced : ¬ (∀ off ∈ parameterOffsets, (isPlaced row.placed off || b.getD off 0 == 0) = true)
      ↔ unplacedByte row.placed b := by
    simp only [unplacedByte, Bool.or_eq_true, beq_iff_eq, not_forall, not_or, Bool.not_eq_true, exists_prop, ne_eq]
  have hindex : ¬ (row.index.isSome || adminIndex b == 0) = true ↔ row.index = none ∧ adminIndex b ≠ 0 := by simp
  have hrights : ¬ (adminOpcode b != opLoadAperture || field b 10 1 / 4 == 0) = true
      ↔ adminOpcode b = opLoadAperture ∧ 4 ≤ field b 10 1 := by
    simp
  simp only [adminReservedOk, Bool.and_eq_true, List.all_eq_true, beq_iff_eq, not_and_or, not_allZero_slice_iff, hindex, hoptions,
    hplaced, hrights, or_assoc]

/-- Check 2 for a row that names a target index, with `n` option bits and its placed fields before offset `free`. -/
theorem reserved_of_indexed {b : List Byte} {range : Nat × Nat} {n free : Nat} {placed : List (Nat × Nat)}
    (hop : adminOpcode b ≠ opLoadAperture) (h8 : 8 ≤ free)
    (hp : ∀ off ∈ parameterOffsets, isPlaced placed off = decide (off < free)) :
    ¬ adminReservedOk ⟨some range, n, placed⟩ b = true ↔ someByte b 6 8 ∨ someByte b free 64 ∨ 2 ^ n ≤ field b 2 2 := by
  rw [not_adminReservedOk_iff, unplacedByte_iff h8 hp]
  simp only [hop, reduceCtorEq, false_and, false_or, or_comm]

/-- Check 2 for a row without a target index. -/
theorem reserved_of_unindexed {b : List Byte} {n free : Nat} {placed : List (Nat × Nat)}
    (hop : adminOpcode b ≠ opLoadAperture) (h8 : 8 ≤ free)
    (hp : ∀ off ∈ parameterOffsets, isPlaced placed off = decide (off < free)) :
    ¬ adminReservedOk ⟨none, n, placed⟩ b = true ↔
      someByte b 6 8 ∨ someByte b free 64 ∨ adminIndex b ≠ 0 ∨ 2 ^ n ≤ field b 2 2 := by
  rw [not_adminReservedOk_iff, unplacedByte_iff h8 hp]
  simp only [hop, false_and, true_and, or_false]
  rw [← or_assoc (a := adminIndex b ≠ 0), or_comm (b := someByte b free 64)]

/-- A row that names no option leaves the options 0. -/
theorem noOption_iff (x : Nat) : 2 ^ 0 ≤ x ↔ x ≠ 0 := Nat.one_le_iff_ne_zero

/-- A row that names one option leaves them 0 or 1. -/
theorem oneOption_iff (x : Nat) : 2 ^ 1 ≤ x ↔ 1 < x := Iff.rfl

/-! ## Check 3: the target index (R135, R174) -/

theorem index_of_unindexed (b : List Byte) (n : Nat) (placed : List (Nat × Nat)) :
    ¬ adminIndexOk ⟨none, n, placed⟩ b = true ↔ False := by
  simp [adminIndexOk]

theorem index_of_indexed (b : List Byte) (hi n : Nat) (placed : List (Nat × Nat)) :
    ¬ adminIndexOk ⟨some (1, hi), n, placed⟩ b = true ↔ adminIndex b = 0 ∨ hi < adminIndex b := by
  simp only [adminIndexOk, Bool.and_eq_true, decide_eq_true_eq]
  omega

/-! ## Checks 4 and 5 where there is nothing to find -/

section
variable {b : List Byte} {op : Nat}

theorem parameters_of_none (hop : adminOpcode b = op)
    (h : op ∉ [opSetEngine, opConfigureQueue, opConfigureCq, opLoadAperture, opReadStatistics, opQueryQueue]) :
    ¬ adminParametersOk b = true ↔ False := by
  simp only [List.mem_cons, List.not_mem_nil, or_false, not_or] at h
  simp [adminParametersOk, hop, h]

theorem stateRefusal_of_none (s : State) (hop : adminOpcode b = op)
    (h : op ∉ [opConfigureQueue, opEnableQueue, opResumeQueue, opConfigureCq]) : stateRefusal s b = none := by
  simp only [List.mem_cons, List.not_mem_nil, or_false, not_or] at h
  simp [stateRefusal, hop, h]

/-- What passes checks 1 to 4 has passed check 4. -/
theorem parametersOk_of_recordOk (h : recordOk b = true) : adminParametersOk b = true := by
  unfold recordOk at h
  split at h
  · cases h
  · exact (Bool.and_eq_true_iff.mp h).2

end

/-! ## Checks 1 to 5 in their order -/

/-- A record of an assigned opcode has the verdict of the first check that finds something. -/
theorem adminCheck_eq_verdictOf {s : State} {b : List Byte} {row : OpcodeRow} {reserved index parameter : Prop}
    [Decidable reserved] [Decidable index] [Decidable parameter] {state : Option Status}
    (hrow : opcodeRow (adminOpcode b) = some row) (hreserved : ¬ adminReservedOk row b = true ↔ reserved)
    (hindex : ¬ adminIndexOk row b = true ↔ index) (hparameter : ¬ adminParametersOk b = true ↔ parameter)
    (hstate : stateRefusal s b = state) : adminCheck s b = verdictOf reserved index parameter state := by
  subst hstate
  simp only [adminCheck, hrow, verdictOf, ← hreserved, ← hindex, ← hparameter, Bool.not_eq_true']
  cases stateRefusal s b <;> simp

theorem opcodeRow_unassigned {op : Nat} (h : op = 0 ∨ 12 < op) : opcodeRow op = none := by
  have hne (k : Nat) (hk : 0 < k ∧ k ≤ 12) : op ≠ k := by omega
  simp [opcodeRow, opSetEngine, opConfigureQueue, opEnableQueue, opDisableQueue, opAbortQueue, opResumeQueue, opConfigureCq,
    opLoadAperture, opClearAperture, opReadStatistics, opQueryQueue, opMark, hne]

theorem adminCheck_unassigned {s : State} {b : List Byte} (h : adminOpcode b = 0 ∨ 12 < adminOpcode b) :
    adminCheck s b = some (.unknown, .none) := by
  simp only [adminCheck, opcodeRow_unassigned h]

/-! ## The row of a checked record (R135, R136) -/

section
variable {i : Instr} {mine : Nat → Bool} {run : List Byte → State → State} {b : List Byte} {s : State}

theorem Holds.opcode {op : Nat} (h : Holds op b s) : adminOpcode b = op := by
  obtain ⟨-, hop, -⟩ := h
  exact hop

theorem Holds.parametersOk {op : Nat} (h : Holds op b s) : adminParametersOk b = true := by
  obtain ⟨-, -, hok⟩ := h
  exact parametersOk_of_recordOk hok

/-- The step of a checked record that failed a check. -/
theorem row_refuses_checked {st : Status} {sub : Sub} (hrow : exec i s = .next (adminRow mine run s))
    (hadmin : s.admin = .executing b (.checked (some (st, sub)))) (hmine : mine (adminOpcode b) = true) :
    ∃ t, exec i s = .next t ∧ EndsAs (selectOnFree s (withCompletion s b st sub 0)) t := by
  refine ⟨_, hrow, ?_⟩
  rw [adminRow_checked hadmin hmine, ← completeAdmin_eq_withCompletion]
  rfl

/-- The step of a checked record that passed its checks. -/
theorem row_carries_checked (hrow : exec i s = .next (adminRow mine run s)) (hadmin : s.admin = .executing b (.checked none))
    (hmine : mine (adminOpcode b) = true) : ∃ t, exec i s = .next t ∧ EndsAs (selectOnFree s (run b s)) t :=
  ⟨_, hrow, by rw [adminRow_checked hadmin hmine]; rfl⟩

variable {op : Nat} (hrow : exec i s = .next (adminRow (isOp op) run s)) (h : Holds op b s)
include hrow h

/-- A record that passes checks 1 to 4 and that the state refuses. -/
theorem row_refuses {st : Status} (hstate : stateRefusal s b = some st) :
    ∃ t, exec i s = .next t ∧ EndsAs (selectOnFree s (withCompletion s b st .none 0)) t := by
  obtain ⟨hadmin, hop, hok⟩ := h
  rw [adminCheck_of_recordOk hok, hstate] at hadmin
  exact row_refuses_checked hrow hadmin (by rw [hop]; exact beq_self_eq_true op)

/-- A record that passes all checks. -/
theorem row_carries (hstate : stateRefusal s b = none) :
    ∃ t, exec i s = .next t ∧ EndsAs (selectOnFree s (run b s)) t := by
  obtain ⟨hadmin, hop, hok⟩ := h
  rw [adminCheck_of_recordOk hok, hstate] at hadmin
  exact row_carries_checked hrow hadmin (by rw [hop]; exact beq_self_eq_true op)

/-- A record whose command changes `s` to `x` and completes. -/
theorem row_completes {sub : Sub} {d : Nat} {x : State} (hstate : stateRefusal s b = none)
    (hrun : run b s = completeAdmin b .ok sub d x) :
    ∃ t, exec i s = .next t ∧ EndsAs (selectOnFree s (withCompletion x b .ok sub d)) t := by
  rw [← completeAdmin_eq_withCompletion, ← hrun]
  exact row_carries hrow h hstate

/-- A record whose command goes on waiting, with no entry made free. -/
theorem row_waits {x : State} (hstate : stateRefusal s b = none) (hrun : run b s = x)
    (hfree : freeEntries x = freeEntries s) : ∃ t, exec i s = .next t ∧ EndsAs x t := by
  have hx : selectOnFree s (run b s) = x := by rw [hrun, selectOnFree_of_le hfree.le]
  exact hx ▸ row_carries hrow h hstate

end

/-- `i` is the row that takes a checked record of opcode `op`. -/
def IsRowOf (op : Nat) (i : Instr) : Prop :=
  ∃ mine run, mine op = true ∧ ∀ s, exec i s = .next (adminRow mine run s)

/-- One line of the command table: its opcode has its row. -/
theorem IsRowOf.ite {op k : Nat} {i j : Instr} (run : List Byte → State → State)
    (hi : ∀ s, exec i s = .next (adminRow (isOp k) run s)) (hj : op ≠ k → IsRowOf op j) :
    IsRowOf op (if op = k then i else j) := by
  split
  · next h => exact ⟨isOp k, run, by rw [h]; exact beq_self_eq_true k, hi⟩
  · next h => exact hj h

theorem commandOf_isRowOf (op : Nat) : IsRowOf op (commandOf op) :=
  .ite setEngine (fun _ => rfl) fun h1 =>
  .ite configureQueue (fun _ => rfl) fun h2 =>
  .ite enableQueue (fun _ => rfl) fun h3 =>
  .ite disableQueue (fun _ => rfl) fun h4 =>
  .ite abortQueue (fun _ => rfl) fun h5 =>
  .ite resumeQueue (fun _ => rfl) fun h6 =>
  .ite configureCq (fun _ => rfl) fun h7 =>
  .ite loadAperture (fun _ => rfl) fun h8 =>
  .ite clearAperture (fun _ => rfl) fun h9 =>
  .ite readStatistics (fun _ => rfl) fun h10 =>
  .ite queryQueue (fun _ => rfl) fun h11 =>
  .ite markRecord (fun _ => rfl) fun h12 =>
  ⟨fun n => (opcodeRow n).isNone, markRecord,
    by simp [opcodeRow, h1, h2, h3, h4, h5, h6, h7, h8, h9, h10, h11, h12], fun _ => rfl⟩
/-! ## Completions alone (R109, R110, R136) -/

/-- A completion that becomes an entry of CQ0 frees none. -/
theorem freeEntries_withCompletion_le {s : State} (b : List Byte) (st : Status) (sub : Sub) (d : Nat)
    (h0 : (s.ring 0).state ≠ .broken) : freeEntries (withCompletion s b st sub d) ≤ freeEntries s := by
  rw [← completeAdmin_eq_withCompletion, completeAdmin_occupied _ _ _ _ _ h0]
  exact freeEntries_completed s _ _ rfl

theorem selectOnFree_withCompletion {s : State} (b : List Byte) (st : Status) (sub : Sub) (d : Nat)
    (h0 : (s.ring 0).state ≠ .broken) : selectOnFree s (withCompletion s b st sub d) = withCompletion s b st sub d :=
  selectOnFree_of_le (freeEntries_withCompletion_le b st sub d h0)

theorem withCompletion_broken {s : State} (b : List Byte) (st : Status) (sub : Sub) (d : Nat) (h0 : (s.ring 0).state = .broken) :
    withCompletion s b st sub d =
      { s.setRing 0 { s.ring 0 with discarded := min ((s.ring 0).discarded + 1) 4294967295 } with
        reserved := removeHolder .adminRecord s.reserved, admin := .idle } := by
  rw [← completeAdmin_eq_withCompletion, completeAdmin_broken _ _ _ _ _ h0]
  rfl

/-- A step that only completes: CQ0 is either BROKEN or takes the entry, and no other is freed. -/
theorem completes_alone {i : Instr} {s : State} {b : List Byte} {st : Status} {sub : Sub} {d : Nat}
    (h : ∃ t, exec i s = .next t ∧ EndsAs (selectOnFree s (withCompletion s b st sub d)) t)
    (h0 : (s.ring 0).state ≠ .broken) : ∃ t, exec i s = .next t ∧ EndsAs (withCompletion s b st sub d) t :=
  selectOnFree_withCompletion b st sub d h0 ▸ h

/-- Settles O15: whatever the opcode, its row (`commandOf_isRowOf`) completes a record that failed a check. -/
theorem adminRefusalIsOnlyACompletion : Obligations.AdminRefusalIsOnlyACompletion := by
  refine ⟨fun b => ⟨rfl, rfl, rfl, rfl⟩, fun b st sub s hadmin => ?_⟩
  obtain ⟨mine, run, hmine, hrow⟩ := commandOf_isRowOf (adminOpcode b)
  obtain ⟨t, ht, hends⟩ := row_refuses_checked (hrow s) hadmin hmine
  exact ⟨t, ht, hends, fun h0 => selectOnFree_withCompletion b st sub 0 h0 ▸ hends⟩

/-- Settles O16: a record of an unassigned opcode is refused by its row, and a MARK that passes is completed by its own. -/
theorem unknownOpcodeAndMarkOnlyComplete : Obligations.UnknownOpcodeAndMarkOnlyComplete := by
  refine ⟨fun b s h => adminCheck_unassigned h, fun b s hop => ?_, ?_⟩
  · refine adminCheck_eq_verdictOf (by rw [hop]; rfl) ?_ (index_of_unindexed ..) (parameters_of_none hop (by decide))
      (stateRefusal_of_none s hop (by decide))
    rw [reserved_of_unindexed (free := 8) (by rw [hop]; decide) (by decide) (by decide), noOption_iff, someByte_reserved_or]
  · intro b s hadmin lost
    have hlost (st : Status) (h0 : (s.ring 0).state = .broken) : withCompletion s b st .none 0 = lost :=
      withCompletion_broken _ _ _ _ h0
    refine ⟨fun hop => ?_, fun hop hok => ?_⟩
    · have hdone : ∃ t, exec .unknownOpcode s = .next t ∧ EndsAs (selectOnFree s (withCompletion s b .unknown .none 0)) t :=
        row_refuses_checked rfl (adminCheck_unassigned (s := s) hop ▸ hadmin) (by rw [opcodeRow_unassigned hop]; rfl)
      exact ⟨completes_alone hdone, fun h0 => hlost .unknown h0 ▸ hdone⟩
    · have hdone : ∃ t, exec .mark s = .next t ∧ EndsAs (selectOnFree s (withCompletion s b .ok .none 0)) t :=
        row_completes rfl ⟨hadmin, hop, hok⟩ (stateRefusal_of_none s hop (by decide)) rfl
      exact ⟨completes_alone hdone, fun h0 => hlost .ok h0 ▸ hdone⟩

theorem parametersOk_setEngine {b : List Byte} (hop : adminOpcode b = 0x01) :
    adminParametersOk b = true ↔ 1 ≤ field b 8 4 ∧ field b 8 4 ≤ 65535 ∧ 1 ≤ field b 12 4 ∧ field b 12 4 ≤ 255 := by
  simp only [adminParametersOk, hop, opSetEngine, if_true, Bool.and_eq_true, decide_eq_true_eq, and_assoc]
  rfl

/-- Settles O17: a record that passes its checks is completed with the settings replaced (`row_completes`). -/
theorem setEngineReplacesTheSettings : Obligations.SetEngineReplacesTheSettings := by
  refine ⟨fun b s hop => ?_, fun b s h => ?_⟩
  · refine adminCheck_eq_verdictOf (by rw [hop]; rfl) ?_ (index_of_unindexed ..) (not_congr (parametersOk_setEngine hop))
      (stateRefusal_of_none s hop (by decide))
    rw [reserved_of_unindexed (free := 16) (by rw [hop]; decide) (by decide) (by decide), noOption_iff]
  · exact ⟨(parametersOk_setEngine h.opcode).mp h.parametersOk,
      row_completes rfl h (stateRefusal_of_none s h.opcode (by decide)) rfl⟩

end Sys2Proof.Machine
end

section
/-! PROOF. The admin commands on a work queue (R138 to R146): the statements ConfigureQueueIsCheckedAndSetsTheQueue,
EnableQueueFollowsItsTable, DisableQueueActsAtOnceOutsideAContext, AbortQueueWithoutAStackedContext and ResumeQueueEndsTheHalt. -/

namespace Sys2Proof.Machine

/-! ## Rows that name a work queue and place no parameter (R174) -/

/-- The verdict on such a record, with what its options must not be and what the state refuses. -/
theorem adminCheck_queueRow {s : State} {b : List Byte} {op n : Nat} {options : Prop} [Decidable options] {state : Option Status}
    (hop : adminOpcode b = op) (hrow : opcodeRow op = some ⟨some (1, 8), n, []⟩)
    (hnone : op ∉ [opSetEngine, opConfigureQueue, opConfigureCq, opLoadAperture, opReadStatistics, opQueryQueue])
    (hoptions : 2 ^ n ≤ field b 2 2 ↔ options) (hstate : stateRefusal s b = state) :
    adminCheck s b = verdictOf (someByte b 6 64 ∨ options) (adminIndex b = 0 ∨ 8 < adminIndex b) False state := by
  refine adminCheck_eq_verdictOf (hop ▸ hrow) ?_ (index_of_indexed ..) (parameters_of_none hop hnone) hstate
  have hload : adminOpcode b ≠ opLoadAperture := by
    rintro h
    simp [← hop, h] at hnone
  rw [reserved_of_indexed (free := 8) hload (by decide) (by decide), hoptions, someByte_reserved_or]

/-! ## CONFIGURE QUEUE (R139, R140) -/

theorem ringPlaceOk_iff (base size slotBytes : Nat) :
    ringPlaceOk base size slotBytes = true ↔ base % 4096 = 0 ∧ base + slotBytes * size ≤ 2 ^ 48 := by
  rw [ringPlaceOk, Bool.and_eq_true, beq_iff_eq, decide_eq_true_iff]
  rfl

/-- A ring's size from `2 ^ j` to 4096 (R49, R113). -/
theorem powerOfTwoIn_iff (j n : Nat) : powerOfTwoIn (2 ^ j) 4096 n = true ↔ ∃ k ∈ List.range 13, j ≤ k ∧ n = 2 ^ k := by
  simp only [powerOfTwoIn, Bool.and_eq_true, decide_eq_true_eq, List.any_eq_true, beq_iff_eq]
  constructor
  · rintro ⟨⟨hlo, -⟩, k, hk, rfl⟩
    exact ⟨k, hk, (Nat.pow_le_pow_iff_right (by decide)).mp hlo, rfl⟩
  · rintro ⟨k, hk, hjk, rfl⟩
    have hk' : k ≤ 12 := Nat.le_of_lt_succ (List.mem_range.mp hk)
    exact ⟨⟨Nat.pow_le_pow_right (by decide) hjk, Nat.pow_le_pow_right (j := 12) (by decide : 0 < 2) hk'⟩, k, hk, rfl⟩

section
variable {b : List Byte} {q : WqId} {s : State}

theorem parametersOk_configureQueue (hop : adminOpcode b = 0x02) :
    adminParametersOk b = true ↔
      field b 8 8 % 4096 = 0 ∧ field b 8 8 + 64 * field b 16 2 ≤ 2 ^ 48
      ∧ (∃ k ∈ List.range 13, 3 ≤ k ∧ field b 16 2 = 2 ^ k)
      ∧ 1 ≤ field b 18 1 ∧ field b 18 1 ≤ 7 ∧ 1 ≤ field b 19 1 ∧ field b 19 1 ≤ 3 ∧ field b 20 1 ≤ 1 := by
  have hsize : powerOfTwoIn 8 4096 (field b 16 2) = true ↔ _ := powerOfTwoIn_iff 3 (field b 16 2)
  rw [← hsize]
  simp only [adminParametersOk, hop, opSetEngine, opConfigureQueue, Nat.reduceEqDiff, if_true, if_false,
    Bool.and_eq_true, decide_eq_true_eq, ringPlaceOk_iff, and_assoc]
  rfl

theorem stateRefusal_configureQueue (s : State) (hop : adminOpcode b = 0x02) :
    stateRefusal s b = if (s.queue (adminQueue b)).state ≠ .disabled then some .busy else none := by
  rw [ite_not]
  simp only [stateRefusal, hop]
  rfl

/-- The descriptor of R140, with the ring and the policy that the codes name. -/
theorem configuredQueue_eq {c : CqId} (hc : field b 19 1 = c.val) (hp : field b 20 1 ≤ 1) (d : Queue) :
    configuredQueue b d =
      { d with ringBase := field b 8 8, ringSize := field b 16 2, level := field b 18 1, ring := some c
               policy := if field b 20 1 = 0 then .halt else .skip, head := 0, tail := 0, haltCause := .none } := by
  have hring : Fin.ofNat 4 (paramRing b) = c := by
    rw [paramRing, hc]
    exact Fin.ofNat_val_eq_self c
  have hpolicy : (if paramPolicy b = 1 then FaultPolicy.skip else .halt) = if field b 20 1 = 0 then .halt else .skip := by
    rcases Nat.le_one_iff_eq_zero_or_eq_one.mp hp with h | h <;> simp [paramPolicy, h]
  rw [configuredQueue, hring, hpolicy]
  rfl

end

/-- Settles O18: a DISABLED queue is set as `configuredQueue_eq` says, any other is refused BUSY. -/
theorem configureQueueIsCheckedAndSetsTheQueue : Obligations.ConfigureQueueIsCheckedAndSetsTheQueue := by
  refine ⟨fun b s hop => ?_, fun b q c s h hq hc => ?_⟩
  · refine adminCheck_eq_verdictOf (by rw [hop]; rfl) ?_ (index_of_indexed ..) (not_congr (parametersOk_configureQueue hop))
      (stateRefusal_configureQueue s hop)
    rw [reserved_of_indexed (free := 21) (by rw [hop]; decide) (by decide) (by decide), noOption_iff]
  · obtain ⟨-, -, -, -, -, -, -, hpolicy⟩ := (parametersOk_configureQueue h.opcode).mp h.parametersOk
    have hstate := stateRefusal_configureQueue s h.opcode
    rw [adminQueue_of_index hq] at hstate
    refine ⟨fun hd => ?_, fun hd => ?_⟩
    · refine row_completes rfl h (by simpa [hd] using hstate) ?_
      rw [configureQueue, adminQueue_of_index hq, configuredQueue_eq hc hpolicy]
    · exact row_refuses rfl h (by simpa [hd] using hstate)

/-! ## A queue that enters IDLE (R31, R141, R146) -/

/-- The selection of a queue that enters IDLE, or the claim of the entry that the step has freed (R31, R109; log 6). -/
theorem selectOnFree_selectOnIdle (s base : State) :
    selectOnFree s (selectOnIdle s base) =
      if freeEntries s < freeEntries base then claimFreed base else selectOnFree s (select base) := by
  split
  · next h => rw [selectOnIdle_of_lt h, selectOnFree_of_lt h]
  · next h => rw [selectOnIdle_of_le (Nat.not_lt.mp h)]

/-! ## ENABLE QUEUE (R141) -/

theorem boundRingActive_iff (s : State) (d : Queue) :
    boundRingActive s d = true ↔ ¬ ∀ c, d.ring = some c → (s.ring c).state ≠ .active := by
  cases hr : d.ring <;> simp [boundRingActive, hr]

/-- R141's table. -/
theorem enableRefusal_eq (s : State) (d : Queue) :
    enableRefusal s d =
      if d.ringSize = 0 then some .notReady
      else if d.state = .halted ∨ d.drain = true then some .busy
      else if d.state ≠ .disabled then none
      else if (∀ c, d.ring = some c → (s.ring c).state ≠ .active) ∨ s.engine = .stopping then some .notReady
      else none := by
  have hring : (!boundRingActive s d) = true ↔ ∀ c, d.ring = some c → (s.ring c).state ≠ .active := by
    rw [Bool.not_eq_true', ← Bool.not_eq_true, boundRingActive_iff, not_not]
  simp only [enableRefusal, hring, ite_or]

theorem stateRefusal_enableQueue {b : List Byte} (s : State) (hop : adminOpcode b = 0x03) :
    stateRefusal s b = enableRefusal s (s.queue (adminQueue b)) := by
  simp only [stateRefusal, hop]
  rfl

theorem enableQueue_of_disabled {b : List Byte} {q : WqId} {s : State} (hq : adminQueue b = q)
    (hd : (s.queue q).state = .disabled) :
    enableQueue b s = selectOnIdle s (withCompletion (s.setQueue q { s.queue q with state := .idle }) b .ok .none 0) := by
  rw [← completeAdmin_eq_withCompletion]
  simp only [enableQueue, hq, hd, if_true]

theorem enableQueue_of_enabled {b : List Byte} {q : WqId} {s : State} (hq : adminQueue b = q)
    (hd : (s.queue q).state ≠ .disabled) : enableQueue b s = completeAdmin b .ok .unchanged 0 s := by
  simp only [enableQueue, hq, hd, if_false]

/-- Settles O19: the rows of R141's table are those of `enableRefusal_eq`. -/
theorem enableQueueFollowsItsTable : Obligations.EnableQueueFollowsItsTable := by
  constructor
  · intro b s hop d
    exact adminCheck_queueRow hop rfl (by decide) (noOption_iff _) ((stateRefusal_enableQueue s hop).trans (enableRefusal_eq s d))
  · intro b q s h hindex d
    have hq := adminQueue_of_index hindex
    have hstate : stateRefusal s b = enableRefusal s d := by rw [stateRefusal_enableQueue s h.opcode, hq]
    rw [enableRefusal_eq] at hstate
    refine ⟨fun h0 => ?_, fun h0 hbusy => ?_, fun h0 hdrain hs => ?_, fun h0 hdrain hs hnot => ?_,
      fun c h0 hdrain hs hc hactive hrun => ?_⟩
    · exact row_refuses rfl h (by simpa [h0] using hstate)
    · exact row_refuses rfl h (by simpa [h0, hbusy] using hstate)
    · have hd : d.state ≠ .disabled ∧ d.state ≠ .halted := by rcases hs with e | e | e <;> simp [e]
      exact row_completes rfl h (by simpa [h0, hdrain, hd] using hstate) (enableQueue_of_enabled hq hd.1)
    · exact row_refuses rfl h (by simpa [h0, hdrain, hs, hnot] using hstate)
    · intro base
      have hpass : stateRefusal s b = none := by simpa [h0, hdrain, hs, hc, hactive, hrun] using hstate
      rw [← selectOnFree_selectOnIdle, ← enableQueue_of_disabled hq hs]
      exact row_carries rfl h hpass

/-! ## DISABLE QUEUE outside a context (R142, R143) -/

theorem applyDisable_of_disabled {b : List Byte} {q : WqId} {s : State} (hs : (s.queue q).state = .disabled) :
    applyDisable b q s = some (withCompletion s b .ok .immediate 0) := by
  rw [← completeAdmin_eq_withCompletion]
  simp only [applyDisable, hs]

theorem applyDisable_at_once {b : List Byte} {q : WqId} {s : State}
    (hs : (s.queue q).state = .idle ∨ (s.queue q).state = .halted) :
    applyDisable b q s = some (withCompletion (disabledNow q s) b .ok .immediate 0) := by
  rw [← completeAdmin_eq_withCompletion]
  rcases hs with hs | hs <;> simp only [applyDisable, hs, disabledNow]

/-- Settles O20: both rows apply the DISABLE QUEUE (`disable_applied`), and R142's table says what comes of that. -/
theorem disableQueueActsAtOnceOutsideAContext : Obligations.DisableQueueActsAtOnceOutsideAContext := by
  refine ⟨fun b s hop => ?_, fun i b q s hi => ⟨fun hs => ?_, fun hs => ?_⟩⟩
  · exact adminCheck_queueRow hop rfl (by decide) (noOption_iff _) (stateRefusal_disable hop)
  · exact disable_applied hi (applyDisable_of_disabled hs)
  · exact disable_applied hi (applyDisable_at_once hs)

/-! ## ABORT QUEUE without a stacked context (R144, R145) -/

/-- Emptying a queue's slot changes nothing else of its descriptor. -/
theorem emptySlot_queue_self (q : WqId) (s : State) : ∃ slot, (emptySlot q s).queue q = { s.queue q with slot := slot } := by
  rcases emptySlot_cases q s with ⟨_, h⟩ | ⟨_, h⟩ | ⟨_, _, h⟩ | ⟨_, _, h⟩
  · exact ⟨(s.queue q).slot, by rw [h]⟩
  · exact ⟨.empty, by rw [h]; simp⟩
  · exact ⟨.empty, by rw [h]; exact State.setQueue_queue_self ..⟩
  · exact ⟨.filling true, by rw [h]; simp⟩

/-- The posted count of a ring, as the integers count it (R50). -/
theorem posted_eq {d : Queue} {n : Nat}
    (h : d.ringSize = 0 ∧ n = 0
      ∨ d.head < d.ringSize ∧ d.tail < d.ringSize ∧ (n : Int) = ((d.tail : Int) - d.head) % d.ringSize) : d.posted = n := by
  rcases h with ⟨h0, rfl⟩ | ⟨hhead, -, hn⟩
  · simp [Queue.posted, postedCount, h0]
  · exact Int.ofNat_inj.mp ((postedCount_eq_emod d.tail hhead).trans hn.symm)

theorem finishAbort_eq {b : List Byte} {q : WqId} {s : State} {n : Nat} (sub : Sub) (hn : (s.queue q).posted = n) :
    finishAbort b q sub s =
      completeAdmin b .ok sub n
        ((emptySlot q s).setQueue q { (emptySlot q s).queue q with
          head := (s.queue q).tail, state := .disabled, haltCause := .none
          discarded := min ((s.queue q).discarded + n) 4294967295 }) := by
  obtain ⟨slot, hslot⟩ := emptySlot_queue_self q s
  subst hn
  simp only [finishAbort, hslot]
  rfl

theorem abortQueue_of_active {b : List Byte} {q : WqId} {s : State} {c : Context} (hq : adminQueue b = q)
    (ha : s.active = some c) (hc : c.queue = q) :
    abortQueue b s = waitFor b (.waitReport q) (s.setQueue q { s.queue q with abortPending := true }) := by
  simp [abortQueue, hq, ownsActive, ha, hc]

theorem abortQueue_of_no_context {b : List Byte} {q : WqId} {s : State} (hq : adminQueue b = q)
    (hc : ∀ c ∈ contexts s, c.queue ≠ q) : abortQueue b s = finishAbort b q .none s := by
  have hactive : ownsActive s q = false := by
    unfold ownsActive
    split
    · next c h => exact decide_eq_false (hc c (by simp [contexts, h]))
    · rfl
  have hstack : stackedContext s q = none := by
    rw [stackedContext, List.find?_eq_none]
    intro c h
    simpa using hc c (by simp [contexts, h])
  simp [abortQueue, hq, hactive, hstack]

/-- Settles O22: `abortQueue_of_active` waits for the scheduler's report, `abortQueue_of_no_context` finishes at once. -/
theorem abortQueueWithoutAStackedContext : Obligations.AbortQueueWithoutAStackedContext := by
  refine ⟨fun b s hop => ?_, fun b q s h hindex => ⟨fun c ha hc => ?_, fun n hcontexts hn => ?_⟩⟩
  · exact adminCheck_queueRow hop rfl (by decide) (noOption_iff _) (stateRefusal_of_none s hop (by decide))
  · exact row_waits rfl h (stateRefusal_of_none s h.opcode (by decide))
      (abortQueue_of_active (adminQueue_of_index hindex) ha hc) rfl
  · exact row_completes rfl h (stateRefusal_of_none s h.opcode (by decide))
      ((abortQueue_of_no_context (adminQueue_of_index hindex) hcontexts).trans (finishAbort_eq .none (posted_eq hn)))

/-! ## RESUME QUEUE (R70, R146) -/

theorem stateRefusal_resumeQueue {b : List Byte} (s : State) (hop : adminOpcode b = 0x06) :
    stateRefusal s b = if (s.queue (adminQueue b)).state ≠ .halted then some .busy else none := by
  rw [ite_not]
  simp only [stateRefusal, hop]
  rfl

/-- SKIP_ONE is option bit 0 (R146, R174). -/
theorem skipOne_iff (b : List Byte) : bitOf (adminOptions b) 0 = true ↔ field b 2 2 % 2 = 1 := by
  simp [bitOf, adminOptions]

theorem resumedQueue_eq (b : List Byte) (d : Queue) :
    resumedQueue (bitOf (adminOptions b) 0) d =
      { d with state := .idle, haltCause := .none
               head := if field b 2 2 % 2 = 1 ∧ d.haltCause = .fetch then (d.head + 1) % d.ringSize else d.head } := by
  simp only [resumedQueue, skipOne_iff, and_comm]

/-- R146's table. -/
theorem resumeSub_eq (b : List Byte) (d : Queue) :
    resumeSub (bitOf (adminOptions b) 0) d =
      if field b 2 2 % 2 = 0 then .none else if d.haltCause = .fetch then .skipped else .skipIgnored := by
  have hskip : (!bitOf (adminOptions b) 0) = true ↔ field b 2 2 % 2 = 0 := by
    rw [Bool.not_eq_true', ← Bool.not_eq_true, skipOne_iff]
    omega
  simp only [resumeSub, hskip]

/-- Settles O24: a HALTED queue enters IDLE as `resumedQueue_eq` and `resumeSub_eq` say, any other is refused BUSY. -/
theorem resumeQueueEndsTheHalt : Obligations.ResumeQueueEndsTheHalt := by
  refine ⟨fun b s hop => ?_, fun b q s h hindex => ?_⟩
  · exact adminCheck_queueRow hop rfl (by decide) (oneOption_iff _) (stateRefusal_resumeQueue s hop)
  · have hstate := stateRefusal_resumeQueue s h.opcode
    rw [adminQueue_of_index hindex] at hstate
    refine ⟨fun hs => ?_, fun hs => ?_⟩
    · intro d skips base
      have hrun : resumeQueue b s = selectOnIdle s base := by
        rw [resumeQueue, adminQueue_of_index hindex, resumedQueue_eq, resumeSub_eq, completeAdmin_eq_withCompletion]
      rw [← selectOnFree_selectOnIdle, ← hrun]
      exact row_carries rfl h (by simpa [hs] using hstate)
    · exact row_refuses rfl h (by simpa [hs] using hstate)

end Sys2Proof.Machine
end

section
/-! PROOF. The admin commands on completion rings and apertures (R82, R83, R147 to R149): the statements
ConfigureCqMakesTheRingActive and ApertureCommandsUpdateOrWait. -/

namespace Sys2Proof.Machine

section
variable {b : List Byte} {s : State}

/-! ## CONFIGURE CQ (R147, R148) -/

theorem parametersOk_configureCq (hop : adminOpcode b = 0x07) :
    adminParametersOk b = true ↔
      field b 8 8 % 4096 = 0 ∧ field b 8 8 + 32 * field b 16 2 ≤ 2 ^ 48
      ∧ (∃ k ∈ List.range 13, 4 ≤ k ∧ field b 16 2 = 2 ^ k)
      ∧ 1 ≤ field b 18 2 ∧ field b 18 2 ≤ 255 ∧ field b 20 4 ≤ 65535 := by
  have hsize : powerOfTwoIn 16 4096 (field b 16 2) = true ↔ _ := powerOfTwoIn_iff 4 (field b 16 2)
  rw [← hsize]
  simp only [adminParametersOk, hop, opSetEngine, opConfigureQueue, opConfigureCq, Nat.reduceEqDiff, if_true, if_false,
    Bool.and_eq_true, decide_eq_true_eq, ringPlaceOk_iff, and_assoc]
  rfl

/-- A queue bound to the ring is not DISABLED, or an entry of the pending list is bound for it (R147). -/
theorem ringBusy_iff (s : State) (c : CqId) :
    ringBusy s c = true ↔
      (∃ q, (s.queue q).ring = some c ∧ (s.queue q).state ≠ .disabled)
      ∨ (∃ r ∈ s.reserved, r.ring = c) ∨ (∃ o ∈ s.occupied, o.ring = c) := by
  simp [ringBusy, mem_allQueues, or_assoc]

theorem stateRefusal_configureCq (s : State) (hop : adminOpcode b = 0x07) :
    stateRefusal s b = if ringBusy s (adminRingIndex b) = true then some .busy else none := by
  simp only [stateRefusal, hop]
  rfl

theorem adminRingIndex_of_index {c : CqId} (h : adminIndex b = c.val) : adminRingIndex b = c := by
  rw [adminRingIndex, h]
  exact Fin.ofNat_val_eq_self c

end

/-- Settles O25: the ring is busy as `ringBusy_iff` says, or becomes ACTIVE. -/
theorem configureCqMakesTheRingActive : Obligations.ConfigureCqMakesTheRingActive := by
  constructor
  · intro b s hop c
    refine adminCheck_eq_verdictOf (by rw [hop]; rfl) ?_ (index_of_indexed ..) (not_congr (parametersOk_configureCq hop)) ?_
    · rw [reserved_of_indexed (free := 24) (by rw [hop]; decide) (by decide) (by decide), noOption_iff]
    · rw [stateRefusal_configureCq s hop]
      exact if_congr (ringBusy_iff s c) rfl rfl
  · intro b c s h hindex busy
    have hstate := stateRefusal_configureCq s h.opcode
    rw [adminRingIndex_of_index hindex] at hstate
    refine ⟨fun hbusy => ?_, fun hfree => ?_⟩
    · exact row_refuses rfl h (hstate.trans (if_pos ((ringBusy_iff s c).mpr hbusy)))
    · refine row_completes rfl h (hstate.trans (if_neg (mt (ringBusy_iff s c).mp hfree))) ?_
      rw [configureCq, adminRingIndex_of_index hindex]
      rfl

/-! ## LOAD APERTURE and CLEAR APERTURE: their checks (R82, R174) -/

section
variable {b : List Byte} {s : State}

theorem index_of_aperture (n : Nat) (placed : List (Nat × Nat)) :
    ¬ adminIndexOk ⟨some (0, 15), n, placed⟩ b = true ↔ 15 < adminIndex b := by
  simp only [adminIndexOk, Bool.and_eq_true, decide_eq_true_eq]
  omega

/-- The bytes that LOAD APERTURE's parameters leave: 12 to 15, and 32 on. -/
theorem unplacedByte_loadAperture (b : List Byte) :
    unplacedByte [(8, 1), (9, 1), (10, 1), (11, 1), (16, 8), (24, 8)] b ↔ someByte b 12 16 ∨ someByte b 32 64 := by
  have hplaced : ∀ off ∈ parameterOffsets,
      isPlaced [(8, 1), (9, 1), (10, 1), (11, 1), (16, 8), (24, 8)] off = false ↔ 12 ≤ off ∧ off < 16 ∨ 32 ≤ off := by decide
  rw [someByte_iff, someByte_iff]
  constructor
  · rintro ⟨off, hoff, hfree, hbyte⟩
    rcases (hplaced off hoff).mp hfree with ⟨hlo, hhi⟩ | hlo
    · exact .inl ⟨off, hhi, hlo, hbyte⟩
    · exact .inr ⟨off, by have := List.mem_range'_1.mp hoff; omega, hlo, hbyte⟩
  · rintro (⟨off, hhi, hlo, hbyte⟩ | ⟨off, hhi, hlo, hbyte⟩)
    all_goals
      have hoff : off ∈ parameterOffsets := List.mem_range'_1.mpr (by omega)
      exact ⟨off, hoff, (hplaced off hoff).mpr (by omega), hbyte⟩

theorem reserved_of_loadAperture {range : Nat × Nat} (hop : adminOpcode b = 0x08) :
    ¬ adminReservedOk ⟨some range, 0, [(8, 1), (9, 1), (10, 1), (11, 1), (16, 8), (24, 8)]⟩ b = true ↔
      someByte b 6 8 ∨ someByte b 12 16 ∨ someByte b 32 64 ∨ field b 2 2 ≠ 0 ∨ 4 ≤ field b 10 1 := by
  rw [not_adminReservedOk_iff, unplacedByte_loadAperture]
  simp only [hop, opLoadAperture, reduceCtorEq, false_and, false_or, true_and, noOption_iff]
  rw [← or_assoc (a := someByte b 12 16), or_left_comm (a := field b 2 2 ≠ 0), or_assoc]

theorem parametersOk_loadAperture (hop : adminOpcode b = 0x08) :
    adminParametersOk b = true ↔
      1 ≤ field b 8 1 ∧ field b 8 1 ≤ 3 ∧ 12 ≤ field b 9 1 ∧ field b 9 1 ≤ 47
      ∧ field b 16 8 < 2 ^ 48 ∧ field b 16 8 % 2 ^ field b 9 1 = 0
      ∧ (field b 8 1 = 2 → field b 24 8 < 2 ^ 48 ∧ field b 24 8 % 2 ^ field b 9 1 = 0)
      ∧ (field b 8 1 ≠ 2 → field b 24 8 = 0)
      ∧ (field b 8 1 = 3 → field b 10 1 = 0) ∧ field b 11 1 ≠ 0 := by
  have hop' : adminParametersOk b = loadApertureOk b := by
    simp only [adminParametersOk, hop]
    rfl
  have htarget : (if paramKind b = 2 then decide (paramTarget b < Config.addressLimit) && paramTarget b % 2 ^ paramExponent b == 0
      else paramTarget b == 0) = true ↔
      (field b 8 1 = 2 → field b 24 8 < 2 ^ 48 ∧ field b 24 8 % 2 ^ field b 9 1 = 0)
      ∧ (field b 8 1 ≠ 2 → field b 24 8 = 0) := by
    show (if field b 8 1 = 2 then decide (field b 24 8 < 2 ^ 48) && field b 24 8 % 2 ^ field b 9 1 == 0
      else field b 24 8 == 0) = true ↔ _
    by_cases h : field b 8 1 = 2 <;> simp [h]
  have hrights : (paramKind b != 3 || paramRights b == 0) = true ↔ (field b 8 1 = 3 → field b 10 1 = 0) := by
    rw [Bool.or_eq_true, bne_iff_ne, beq_iff_eq, ← imp_iff_not_or]
    rfl
  rw [hop', loadApertureOk]
  simp only [Bool.and_eq_true, decide_eq_true_eq, beq_iff_eq, bne_iff_ne, htarget, hrights, and_assoc]
  rfl

/-! ## Their updates (R83, R85, R149) -/

theorem adminAperture_of_index {i : ApId} (h : adminIndex b = i.val) : adminAperture b = i := by
  rw [adminAperture, h]
  exact Fin.ofNat_val_eq_self i

/-- The entry that a LOAD APERTURE carries, field by field (R174). -/
theorem loadedAperture_eq (b : List Byte) :
    loadedAperture b =
      { valid := true
        kind := if field b 8 1 = 1 then .direct else if field b 8 1 = 2 then .translate else .deny
        exponent := field b 9 1, base := field b 16 8, target := field b 24 8
        read := field b 10 1 % 2 == 1, write := field b 10 1 / 2 % 2 == 1, queues := b.getD 11 0 } := by
  have hread : bitOf (paramRights b) 0 = (field b 10 1 % 2 == 1) := by simp [bitOf, paramRights]
  have hqueues : BitVec.ofNat 8 (paramQueues b) = b.getD 11 0 := by
    rw [paramQueues, field_succ, field_zero]
    simp
  rw [loadedAperture, hread, hqueues]
  rfl

theorem handUpdate_of_no_segment {u : ApertureUpdate} (h : s.segment = none) :
    handUpdate u b s = completeAdmin b .ok .none 0 (applyUpdate u s) := by
  simp [handUpdate, h]

theorem handUpdate_of_segment {u : ApertureUpdate} (h : s.segment ≠ none) :
    handUpdate u b s = { s with waitingUpdate := some u, admin := .executing b .waitUpdate } := by
  rw [handUpdate, if_pos (Option.isSome_iff_ne_none.mpr h)]
  rfl

end

/-- Settles O26: both commands hand an update over (`handUpdate`), which is applied at once or waits for the segment in flight. -/
theorem apertureCommandsUpdateOrWait : Obligations.ApertureCommandsUpdateOrWait := by
  refine ⟨fun b s hop => ?_, fun b s hop => ?_, fun b i s hindex => ⟨fun h => ?_, fun h => ?_⟩⟩
  · exact adminCheck_eq_verdictOf (by rw [hop]; rfl) (reserved_of_loadAperture hop) (index_of_aperture ..)
      (not_congr (parametersOk_loadAperture hop)) (stateRefusal_of_none s hop (by decide))
  · refine adminCheck_eq_verdictOf (by rw [hop]; rfl) ?_ (index_of_aperture ..) (parameters_of_none hop (by decide))
      (stateRefusal_of_none s hop (by decide))
    rw [reserved_of_indexed (free := 8) (by rw [hop]; decide) (by decide) (by decide), noOption_iff, someByte_reserved_or]
  · intro e
    have hpass := stateRefusal_of_none s h.opcode (by decide)
    have hrun : loadAperture b s = handUpdate ⟨i, some e⟩ b s := by
      rw [loadAperture, adminAperture_of_index hindex, loadedAperture_eq]
    exact ⟨fun hg => row_completes rfl h hpass (hrun.trans (handUpdate_of_no_segment hg)),
      fun hg => row_waits rfl h hpass (hrun.trans (handUpdate_of_segment hg)) rfl⟩
  · have hpass := stateRefusal_of_none s h.opcode (by decide)
    have hrun : clearAperture b s = handUpdate ⟨i, none⟩ b s := by
      rw [clearAperture, adminAperture_of_index hindex]
    exact ⟨fun hg => row_completes rfl h hpass (hrun.trans (handUpdate_of_no_segment hg)),
      fun hg => row_waits rfl h hpass (hrun.trans (handUpdate_of_segment hg)) rfl⟩

end Sys2Proof.Machine
end

section
/-! PROOF. The statistics block and its capture (R150, R151, R177): the statement ReadStatisticsCapturesEveryCounter. -/

namespace Sys2Proof.Machine

/-! ## Fields of blocks that are put together (R172) -/

/-- A field that ends within the first bytes is one of theirs. -/
theorem field_append_left {pre rest : List Byte} {off n : Nat} (h : off + n ≤ pre.length) :
    field (pre ++ rest) off n = field pre off n := by
  rw [field, field, slice, slice, List.drop_append_of_le_length (by omega),
    List.take_append_of_le_length (by rw [List.length_drop]; omega)]

theorem field_leBytes_last (n v : Nat) : field (leBytes n v) 0 n = v % 256 ^ n := by
  simpa using field_leBytes n v []

theorem length_flatMap_const {α : Type} {f : α → List Byte} {m : Nat} (hm : ∀ x, (f x).length = m) (l : List α) :
    (l.flatMap f).length = m * l.length := by
  induction l with
  | nil => rfl
  | cons x xs ih => rw [List.flatMap_cons, List.length_append, hm, ih, List.length_cons, Nat.mul_succ, Nat.add_comm]

/-- A field of the part that entry `k` of a table of equal parts fills. -/
theorem field_flatMap {α : Type} {f : α → List Byte} {m off n : Nat} (hm : ∀ x, (f x).length = m) (h : off + n ≤ m) {l : List α}
    {k : Nat} {x : α} (hk : l[k]? = some x) : field (l.flatMap f) (m * k + off) n = field (f x) off n := by
  induction l generalizing k with
  | nil => simp at hk
  | cons y ys ih =>
    rw [List.flatMap_cons]
    cases k with
    | zero =>
      obtain rfl : y = x := by simpa using hk
      rw [Nat.mul_zero, Nat.zero_add, field_append_left (by rw [hm]; exact h)]
    | succ k =>
      have hle : (f y).length ≤ m * (k + 1) + off := by rw [hm, Nat.mul_succ]; omega
      have hsub : m * (k + 1) + off - (f y).length = m * k + off := by rw [hm, Nat.mul_succ]; omega
      rw [field_append hle, hsub, ih (by simpa using hk)]

theorem allQueues_getElem? (q : WqId) : allQueues[q.val]? = some q := by revert q; decide

theorem allRings_getElem? (c : CqId) : allRings[c.val]? = some c := by revert c; decide

/-! ## The statistics block (R177) -/

theorem queueCounterBytes_length (d : Queue) : (queueCounterBytes d).length = 20 := by simp [queueCounterBytes]

theorem ringCounterBytes_length (r : Ring) : (ringCounterBytes r).length = 8 := by simp [ringCounterBytes]

/-- A counter fits into its four bytes (R73, R127, R171). -/
theorem counter_mod {n : Nat} (h : CounterOk n) : n % 256 ^ 4 = n :=
  Nat.mod_eq_of_lt (Nat.lt_of_le_of_lt h (by decide))

theorem queueCounterBytes_fields {d : Queue} (h : QueueCountersOk d) :
    field (queueCounterBytes d) 0 4 = d.endedOk ∧ field (queueCounterBytes d) 4 4 = d.endedFault
    ∧ field (queueCounterBytes d) 8 4 = d.endedAborted ∧ field (queueCounterBytes d) 12 4 = d.timesSuspended
    ∧ field (queueCounterBytes d) 16 4 = d.discarded := by
  obtain ⟨hok, hfault, haborted, hsuspended, hdiscarded⟩ := h
  simp only [queueCounterBytes, List.append_assoc, field_append, leBytes_length, field_leBytes, field_leBytes_last,
    Nat.reduceLeDiff, Nat.reduceSub, Nat.le_refl, Nat.sub_self, counter_mod, hok, hfault, haborted, hsuspended, hdiscarded,
    and_self]

theorem ringCounterBytes_fields {r : Ring} (h : RingCountersOk r) :
    field (ringCounterBytes r) 0 4 = r.written ∧ field (ringCounterBytes r) 4 4 = r.discarded := by
  obtain ⟨hwritten, hdiscarded⟩ := h
  simp only [ringCounterBytes, field_append, leBytes_length, field_leBytes, field_leBytes_last, Nat.le_refl, Nat.sub_self,
    counter_mod, hwritten, hdiscarded, and_self]

/-- The six engine counters of the statistics block (R171, R177). -/
def engineCounterBytes (k : EngineCounters) : List Byte :=
  leBytes 4 k.requestTimeouts ++ leBytes 4 k.lateResponses ++ leBytes 4 k.strayResponses ++ leBytes 4 k.rejectedPosts
  ++ leBytes 4 k.rejectedAcks ++ leBytes 4 k.droppedAtStop

theorem engineCounterBytes_length (k : EngineCounters) : (engineCounterBytes k).length = 24 := by simp [engineCounterBytes]

theorem engineCounterBytes_fields {k : EngineCounters}
    (h : CounterOk k.requestTimeouts ∧ CounterOk k.lateResponses ∧ CounterOk k.strayResponses ∧ CounterOk k.rejectedPosts
      ∧ CounterOk k.rejectedAcks ∧ CounterOk k.droppedAtStop) :
    field (engineCounterBytes k) 0 4 = k.requestTimeouts ∧ field (engineCounterBytes k) 4 4 = k.lateResponses
    ∧ field (engineCounterBytes k) 8 4 = k.strayResponses ∧ field (engineCounterBytes k) 12 4 = k.rejectedPosts
    ∧ field (engineCounterBytes k) 16 4 = k.rejectedAcks ∧ field (engineCounterBytes k) 20 4 = k.droppedAtStop := by
  obtain ⟨htimeouts, hlate, hstray, hposts, hacks, hdropped⟩ := h
  simp only [engineCounterBytes, List.append_assoc, field_append, leBytes_length, field_leBytes, field_leBytes_last,
    Nat.reduceLeDiff, Nat.reduceSub, Nat.le_refl, Nat.sub_self, counter_mod, htimeouts, hlate, hstray, hposts, hacks, hdropped,
    and_self]

/-- The queues' part of the statistics block, and the rings' (R177). -/
def queueTable (s : State) : List Byte := allQueues.flatMap fun q => queueCounterBytes (s.queue q)
def ringTable (s : State) : List Byte := allRings.flatMap fun c => ringCounterBytes (s.ring c)

theorem queueTable_length (s : State) : (queueTable s).length = 160 :=
  length_flatMap_const (fun _ => queueCounterBytes_length _) _

theorem ringTable_length (s : State) : (ringTable s).length = 32 :=
  length_flatMap_const (fun _ => ringCounterBytes_length _) _

theorem statisticsBlock_eq (s : State) :
    statisticsBlock s = queueTable s ++ (ringTable s ++ (engineCounterBytes s.counters ++ zeros 40)) := by
  simp only [statisticsBlock, queueTable, ringTable, engineCounterBytes, List.append_assoc]
  rfl

theorem statisticsBlock_length (s : State) : (statisticsBlock s).length = 256 := by
  rw [statisticsBlock_eq]
  simp [queueTable_length, ringTable_length, engineCounterBytes_length]

theorem statisticsBlock_drop (s : State) : (statisticsBlock s).drop 216 = zeros 40 := by
  rw [statisticsBlock_eq, ← List.append_assoc, ← List.append_assoc]
  exact List.drop_left' (by simp [queueTable_length, ringTable_length, engineCounterBytes_length])

section
variable {off n : Nat} (s : State)

theorem statisticsBlock_queue (q : WqId) (h : off + n ≤ 20) :
    field (statisticsBlock s) (20 * q.val + off) n = field (queueCounterBytes (s.queue q)) off n := by
  have hq := q.isLt
  rw [statisticsBlock_eq, field_append_left (by rw [queueTable_length]; omega), queueTable,
    field_flatMap (fun _ => queueCounterBytes_length _) h (allQueues_getElem? q)]

theorem statisticsBlock_ring (c : CqId) (h : off + n ≤ 8) :
    field (statisticsBlock s) (160 + 8 * c.val + off) n = field (ringCounterBytes (s.ring c)) off n := by
  have hc := c.isLt
  have hsub : 160 + 8 * c.val + off - 160 = 8 * c.val + off := by omega
  rw [statisticsBlock_eq, field_append (by rw [queueTable_length]; omega), queueTable_length, hsub,
    field_append_left (by rw [ringTable_length]; omega), ringTable,
    field_flatMap (fun _ => ringCounterBytes_length _) h (allRings_getElem? c)]

theorem statisticsBlock_engine (h : off + n ≤ 24) :
    field (statisticsBlock s) (192 + off) n = field (engineCounterBytes s.counters) off n := by
  have hsub : 192 + off - 160 - 32 = off := by omega
  rw [statisticsBlock_eq, field_append (by rw [queueTable_length]; omega), queueTable_length,
    field_append (by rw [ringTable_length]; omega), ringTable_length, hsub,
    field_append_left (by rw [engineCounterBytes_length]; exact h)]

end

/-! ## The clear option (R150) -/

/-- Replacing the elements at the indices of a list, one after another, replaces each of them once. -/
theorem foldl_set_getElem {α : Type} {m : Nat} (f : α → α) {l : List (Fin m)} (hl : l.Nodup) (v : Vector α m) (k : Fin m) :
    (l.foldl (fun v i => v.set i (f v[i])) v)[k] = if k ∈ l then f v[k] else v[k] := by
  induction l generalizing v with
  | nil => simp
  | cons i l ih =>
    obtain ⟨hi, hl⟩ := List.nodup_cons.mp hl
    rw [List.foldl_cons, ih hl]
    by_cases hk : k = i
    · subst hk
      simp [hi]
    · have hne : i.val ≠ k.val := fun h => hk (Fin.ext h.symm)
      simp [hk, hne]

theorem foldl_set_eq_map {α : Type} {m : Nat} (f : α → α) {l : List (Fin m)} (hl : l.Nodup) (hall : ∀ k, k ∈ l)
    (v : Vector α m) : l.foldl (fun v i => v.set i (f v[i])) v = v.map f := by
  refine Vector.ext fun k hk => ?_
  have h := foldl_set_getElem f hl v ⟨k, hk⟩
  rw [if_pos (hall _)] at h
  rw [Vector.getElem_map]
  exact h

theorem foldl_setQueue (f : Queue → Queue) (l : List WqId) (s : State) :
    l.foldl (fun s q => s.setQueue q (f (s.queue q))) s
      = { s with queues := l.foldl (fun v (q : WqId) => v.set q (f v[q])) s.queues } := by
  induction l generalizing s with
  | nil => rfl
  | cons q l ih => exact ih _

theorem foldl_setRing (f : Ring → Ring) (l : List CqId) (s : State) :
    l.foldl (fun s c => s.setRing c (f (s.ring c))) s
      = { s with rings := l.foldl (fun v (c : CqId) => v.set c (f v[c])) s.rings } := by
  induction l generalizing s with
  | nil => rfl
  | cons c l ih => exact ih _

/-- A queue's descriptor with its five counters at 0, and a ring's with its two (R150). -/
def zeroedQueue (d : Queue) : Queue :=
  { d with endedOk := 0, endedFault := 0, endedAborted := 0, timesSuspended := 0, discarded := 0 }
def zeroedRing (r : Ring) : Ring := { r with written := 0, discarded := 0 }

theorem queuesCleared_eq (s : State) : queuesCleared s = { s with queues := s.queues.map zeroedQueue } := by
  have hfold : queuesCleared s = _ := foldl_setQueue zeroedQueue allQueues s
  rw [hfold, foldl_set_eq_map zeroedQueue (by decide) mem_allQueues]

theorem ringsCleared_eq (s : State) : ringsCleared s = { s with rings := s.rings.map zeroedRing } := by
  have hfold : ringsCleared s = _ := foldl_setRing zeroedRing allRings s
  rw [hfold, foldl_set_eq_map zeroedRing (by decide) mem_allRings]

/-- The clear option sets all 54 counters to 0. -/
theorem clearCounters_all (s : State) :
    clearCounters s =
      { s with queues := s.queues.map zeroedQueue, rings := s.rings.map zeroedRing, counters := ⟨0, 0, 0, 0, 0, 0⟩ } := by
  rw [clearCounters_eq, queuesCleared_eq, ringsCleared_eq]
  rfl

/-! ## READ STATISTICS (R150, R151) -/

theorem parametersOk_readStatistics {b : List Byte} (hop : adminOpcode b = 0x0A) :
    adminParametersOk b = true ↔ field b 8 8 % 64 = 0 ∧ field b 8 8 + 256 ≤ 2 ^ 48 := by
  have hop' : adminParametersOk b = (field b 8 8 % 64 == 0 && decide (field b 8 8 + 256 ≤ 2 ^ 48)) := by
    simp only [adminParametersOk, hop]
    rfl
  rw [hop', Bool.and_eq_true, beq_iff_eq, decide_eq_true_iff]

/-- The state that the capture leaves, with the clear option carried out. -/
theorem readStatistics_eq (b : List Byte) (s : State) :
    readStatistics b s =
      { (if field b 2 2 % 2 = 0 then s else clearCounters s) with
        admin := .executing b (.writing
          [⟨field b 8 8, (statisticsBlock s).take 64, .waiting⟩,
           ⟨field b 8 8 + 64, ((statisticsBlock s).drop 64).take 64, .waiting⟩,
           ⟨field b 8 8 + 128, ((statisticsBlock s).drop 128).take 64, .waiting⟩,
           ⟨field b 8 8 + 192, ((statisticsBlock s).drop 192).take 64, .waiting⟩] none) } := by
  have hclear : (if bitOf (adminOptions b) 0 = true then clearCounters s else s)
      = if field b 2 2 % 2 = 0 then s else clearCounters s := by
    rcases Nat.mod_two_eq_zero_or_one (field b 2 2) with h | h <;> simp [skipOne_iff, h]
  rw [readStatistics, hclear]
  rfl

/-- Settles O27: the block's fields are those of its tables (`statisticsBlock_queue`, `statisticsBlock_ring`,
`statisticsBlock_engine`), and the record goes on to write it (`readStatistics_eq`). -/
theorem readStatisticsCapturesEveryCounter : Obligations.ReadStatisticsCapturesEveryCounter := by
  refine ⟨fun b s hop => ?_, fun b s h hlaw => ?_⟩
  · refine adminCheck_eq_verdictOf (by rw [hop]; rfl) ?_ (index_of_unindexed ..) (not_congr (parametersOk_readStatistics hop))
      (stateRefusal_of_none s hop (by decide))
    rw [reserved_of_unindexed (free := 16) (by rw [hop]; decide) (by decide) (by decide), oneOption_iff]
  · obtain ⟨hqueues, hrings, hengine⟩ := hlaw
    have engine {off : Nat} (hoff : off + 4 ≤ 24) := statisticsBlock_engine (n := 4) s hoff
    obtain ⟨h0, h4, h8, h12, h16, h20⟩ := engineCounterBytes_fields hengine
    refine ⟨statisticsBlock s, statisticsBlock_length s, fun q => ?_, fun c => ?_, (engine (off := 0) (by decide)).trans h0,
      (engine (off := 4) (by decide)).trans h4, (engine (off := 8) (by decide)).trans h8,
      (engine (off := 12) (by decide)).trans h12, (engine (off := 16) (by decide)).trans h16,
      (engine (off := 20) (by decide)).trans h20, statisticsBlock_drop s, ?_⟩
    · rw [statisticsBlock_queue (off := 4) s q (by decide), statisticsBlock_queue (off := 8) s q (by decide),
        statisticsBlock_queue (off := 12) s q (by decide), statisticsBlock_queue (off := 16) s q (by decide)]
      have hfirst := statisticsBlock_queue (off := 0) (n := 4) s q (by decide)
      rw [Nat.add_zero] at hfirst
      rw [hfirst]
      exact queueCounterBytes_fields (hqueues q)
    · rw [statisticsBlock_ring (off := 4) s c (by decide)]
      have hfirst := statisticsBlock_ring (off := 0) (n := 4) s c (by decide)
      rw [Nat.add_zero] at hfirst
      rw [hfirst]
      exact ringCounterBytes_fields (hrings c)
    · refine row_waits rfl h (stateRefusal_of_none s h.opcode (by decide)) ((readStatistics_eq b s).trans ?_) ?_
      · rw [clearCounters_all]
        rfl
      · split <;> rfl

end Sys2Proof.Machine
end

section
/-! PROOF. The queue report (R74, R152, R177): the statement QueryQueueTakesTheReport. -/

namespace Sys2Proof.Machine

/-! ## Where a queue's context is (R48, R177) -/

section
variable {s : State} {q : WqId} {c : Context}

theorem contextPlace_active (ha : s.active = some c) (hc : c.queue = q) : contextPlace s q = (1, 0, some c) := by
  simp only [contextPlace, ha, hc, if_true]

/-- A queue that does not own the active context is looked for on the stack. -/
theorem contextPlace_of_not_active (ha : ∀ p ∈ s.active, p.queue ≠ q) : contextPlace s q = contextPlace.stackPlace s q := by
  cases h : s.active with
  | none => simp only [contextPlace, h]
  | some p => simp only [contextPlace, h, if_neg (ha p h)]

theorem contextPlace_none (hc : ∀ c ∈ contexts s, c.queue ≠ q) : contextPlace s q = (0, 0, none) := by
  have hstack : s.stack.findIdx? (fun c => c.queue = q) = none := by
    rw [List.findIdx?_eq_none_iff]
    exact fun c h => decide_eq_false (hc c (by simp [contexts, h]))
  rw [contextPlace_of_not_active fun p hp => hc p (by simp [contexts, Option.mem_def.mp hp]), contextPlace.stackPlace, hstack]

/-- The bottom of the stack is position 1 (R27). -/
theorem contextPlace_stacked {above below : List Context} (ha : ∀ p ∈ s.active, p.queue ≠ q) (hs : s.stack = above ++ c :: below)
    (hc : c.queue = q) (habove : ∀ p ∈ above, p.queue ≠ q) : contextPlace s q = (2, below.length + 1, some c) := by
  have hfind : s.stack.findIdx? (fun c => c.queue = q) = some above.length := by
    have hlt : above.length < s.stack.length := by simp [hs]
    rw [List.findIdx?_eq_some_iff_getElem]
    refine ⟨hlt, by simp [hs, hc], fun j hj => ?_⟩
    simp [hs, List.getElem_append_left hj, habove _ (List.getElem_mem hj)]
  have hget : s.stack[above.length]? = some c := by simp [hs]
  have hlength : s.stack.length - above.length = below.length + 1 := by
    rw [hs, List.length_append, List.length_cons, Nat.add_sub_cancel_left]
  rw [contextPlace_of_not_active ha, contextPlace.stackPlace, hfind]
  simp only [hget, hlength]

/-- Levels that strictly fall from at most `m` to at least 1 are at most `m` many (R27). -/
theorem length_le_of_levelsFall {l : List Context} {m : Nat} (hfall : LevelsFall l) (h : ∀ c ∈ l, 1 ≤ c.level ∧ c.level ≤ m) :
    l.length ≤ m := by
  induction l generalizing m with
  | nil => exact Nat.zero_le m
  | cons c l ih =>
    obtain ⟨hlower, hfall⟩ := List.pairwise_cons.mp hfall
    obtain ⟨hc, hl⟩ := List.forall_mem_cons.mp h
    have hrest : l.length ≤ c.level - 1 := ih hfall fun p hp => ⟨(hl p hp).1, Nat.le_sub_one_of_lt (hlower p hp)⟩
    rw [List.length_cons]
    omega

/-- The stack holds at most seven contexts (R27). -/
theorem stack_length_le (h : SchedulerLaw s) : s.stack.length ≤ 7 := by
  obtain ⟨-, -, hfall, hlevels, -⟩ := h
  have hall : (contexts s).length ≤ 7 := length_le_of_levelsFall hfall hlevels
  rw [contexts, List.length_append] at hall
  omega

end

/-! ## The report's fields (R177) -/

/-- The first 16 bytes of the report: the descriptor. -/
def reportHead (q : WqId) (d : Queue) : List Byte :=
  leBytes 1 (wqNumber q) ++ leBytes 1 (queueStateCode d.state) ++ leBytes 1 d.level ++ leBytes 1 (ringNumber d.ring)
  ++ leBytes 1 (policyCode d.policy) ++ leBytes 1 (slotCode d.slot)
  ++ leBytes 1 (d.drain.toNat + 2 * d.hold.toNat) ++ leBytes 1 (haltCauseCode d.haltCause)
  ++ leBytes 2 d.ringSize ++ leBytes 2 d.head ++ leBytes 2 d.tail ++ leBytes 2 d.posted

/-- The next 12 bytes: the place of the queue's context, its stack position and the context's own position. -/
def reportContext (place depth row offset done : Nat) : List Byte :=
  leBytes 1 place ++ leBytes 1 depth ++ zeros 2 ++ leBytes 2 row ++ leBytes 2 offset ++ leBytes 4 done

theorem reportHead_length (q : WqId) (d : Queue) : (reportHead q d).length = 16 := by simp [reportHead]

theorem reportContext_length (place depth row offset done : Nat) : (reportContext place depth row offset done).length = 12 := by
  simp [reportContext]

theorem reportHead_fields (q : WqId) (d : Queue) :
    field (reportHead q d) 0 1 = wqNumber q % 256 ^ 1 ∧ field (reportHead q d) 1 1 = queueStateCode d.state % 256 ^ 1
    ∧ field (reportHead q d) 2 1 = d.level % 256 ^ 1 ∧ field (reportHead q d) 3 1 = ringNumber d.ring % 256 ^ 1
    ∧ field (reportHead q d) 4 1 = policyCode d.policy % 256 ^ 1 ∧ field (reportHead q d) 5 1 = slotCode d.slot % 256 ^ 1
    ∧ field (reportHead q d) 6 1 = (d.drain.toNat + 2 * d.hold.toNat) % 256 ^ 1
    ∧ field (reportHead q d) 7 1 = haltCauseCode d.haltCause % 256 ^ 1 ∧ field (reportHead q d) 8 2 = d.ringSize % 256 ^ 2
    ∧ field (reportHead q d) 10 2 = d.head % 256 ^ 2 ∧ field (reportHead q d) 12 2 = d.tail % 256 ^ 2
    ∧ field (reportHead q d) 14 2 = d.posted % 256 ^ 2 := by
  simp only [reportHead, List.append_assoc]
  refine ⟨field_leBytes .., ?_, ?_, ?_, ?_, ?_, ?_, ?_, ?_, ?_, ?_, ?_⟩ <;>
    simp only [field_append, leBytes_length, field_leBytes, field_leBytes_last, Nat.reduceLeDiff, Nat.reduceSub, Nat.le_refl,
      Nat.sub_self]

theorem reportContext_fields (place depth row offset done : Nat) :
    field (reportContext place depth row offset done) 0 1 = place % 256 ^ 1
    ∧ field (reportContext place depth row offset done) 1 1 = depth % 256 ^ 1
    ∧ field (reportContext place depth row offset done) 2 2 = 0
    ∧ field (reportContext place depth row offset done) 4 2 = row % 256 ^ 2
    ∧ field (reportContext place depth row offset done) 6 2 = offset % 256 ^ 2
    ∧ field (reportContext place depth row offset done) 8 4 = done % 256 ^ 4 := by
  simp only [reportContext, List.append_assoc]
  refine ⟨field_leBytes .., ?_, ?_, ?_, ?_, ?_⟩ <;>
    simp only [field_append, leBytes_length, zeros_length, field_leBytes, field_leBytes_last, field_zeros, Nat.reduceLeDiff,
      Nat.reduceSub, Nat.le_refl, Nat.sub_self]

/-- The part of the report on a queue's context, `none` without one. -/
def reportContextOf (place depth : Nat) : Option Context → List Byte
  | some c => reportContext place depth c.row c.offset c.done
  | none => reportContext place depth 0 0 0

theorem reportContextOf_length (place depth : Nat) (o : Option Context) : (reportContextOf place depth o).length = 12 := by
  cases o <;> exact reportContext_length ..

theorem reportContextOf_reserved (place depth : Nat) (o : Option Context) : field (reportContextOf place depth o) 2 2 = 0 := by
  have hreserved (row offset done : Nat) : field (reportContext place depth row offset done) 2 2 = 0 := by
    obtain ⟨-, -, h, -⟩ := reportContext_fields place depth row offset done
    exact h
  cases o <;> exact hreserved ..

theorem queueReport_eq {s : State} {q : WqId} {place depth : Nat} {o : Option Context}
    (h : contextPlace s q = (place, depth, o)) :
    queueReport s q = reportHead q (s.queue q) ++ (reportContextOf place depth o ++ zeros 36) := by
  unfold queueReport
  rw [h]
  cases o <;> simp only [reportHead, reportContextOf, reportContext, List.append_assoc] <;> rfl

theorem queueReport_length (s : State) (q : WqId) : (queueReport s q).length = 64 := by
  rw [queueReport_eq rfl]
  simp [reportHead_length, reportContextOf_length]

theorem queueReport_tail (s : State) (q : WqId) : (queueReport s q).drop 28 = List.replicate 36 0 := by
  rw [queueReport_eq rfl, ← List.append_assoc]
  exact List.drop_left' (by simp [reportHead_length, reportContextOf_length])

section
variable {s : State} {q : WqId} {off n : Nat}

theorem queueReport_head (h : off + n ≤ 16) : field (queueReport s q) off n = field (reportHead q (s.queue q)) off n := by
  rw [queueReport_eq rfl, field_append_left (by rw [reportHead_length]; exact h)]

theorem queueReport_context {place depth : Nat} {o : Option Context} (hp : contextPlace s q = (place, depth, o))
    (h : off + n ≤ 12) : field (queueReport s q) (16 + off) n = field (reportContextOf place depth o) off n := by
  rw [queueReport_eq hp, field_append (by rw [reportHead_length]; omega), reportHead_length, Nat.add_sub_cancel_left,
    field_append_left (by rw [reportContextOf_length]; exact h)]

/-- The fields of the report on a context. -/
theorem queueReport_context_fields {place depth : Nat} {c : Context} (hp : contextPlace s q = (place, depth, some c))
    (hplace : place < 256) (hdepth : depth < 256) :
    field (queueReport s q) 16 1 = place ∧ field (queueReport s q) 17 1 = depth ∧ field (queueReport s q) 20 2 = c.row % 65536
    ∧ field (queueReport s q) 22 2 = c.offset % 65536 ∧ field (queueReport s q) 24 4 = c.done % 4294967296 := by
  obtain ⟨h0, h1, -, h4, h6, h8⟩ := reportContext_fields place depth c.row c.offset c.done
  rw [pow_one, Nat.mod_eq_of_lt hplace] at h0
  rw [pow_one, Nat.mod_eq_of_lt hdepth] at h1
  exact ⟨(queueReport_context (off := 0) hp (by decide)).trans h0, (queueReport_context (off := 1) hp (by decide)).trans h1,
    (queueReport_context (off := 4) hp (by decide)).trans h4, (queueReport_context (off := 6) hp (by decide)).trans h6,
    (queueReport_context (off := 8) hp (by decide)).trans h8⟩

theorem queueReport_no_context (h : contextPlace s q = (0, 0, none)) :
    ((queueReport s q).drop 16).take 12 = List.replicate 12 0 := by
  rw [queueReport_eq h, List.drop_left' (reportHead_length ..), List.take_left' (reportContextOf_length ..)]
  rfl

theorem queueReport_reserved (s : State) (q : WqId) : field (queueReport s q) 18 2 = 0 :=
  (queueReport_context (off := 2) rfl (by decide)).trans (reportContextOf_reserved ..)

end

/-! ## The report's codes (R177) -/

theorem queueStateCode_lt (st : QueueState) : queueStateCode st < 256 := by cases st <;> decide
theorem policyCode_lt (p : FaultPolicy) : policyCode p < 256 := by cases p <;> decide
theorem haltCauseCode_lt (h : HaltCause) : haltCauseCode h < 256 := by cases h <;> decide

theorem slotCode_lt (sl : Slot) : slotCode sl < 256 := by
  rcases sl with _ | c | b
  · decide
  · cases c <;> decide
  · simp [slotCode]

theorem ringNumber_lt (r : Option CqId) : ringNumber r < 256 := by
  cases r with
  | none => decide
  | some c => exact Nat.lt_trans c.isLt (by decide)

theorem posted_lt {d : Queue} (h : QueueShape d) : d.posted < 65536 := by
  rcases h with ⟨h0, -⟩ | ⟨hlo, hhi, -⟩
  · simp [Queue.posted, postedCount, h0]
  · have hmod : (d.tail + d.ringSize - d.head) % d.ringSize < d.ringSize := Nat.mod_lt _ (by omega)
    rw [Queue.posted, postedCount, if_neg (by omega)]
    omega

/-- The sizes of R50 and R51 fit into two bytes. -/
theorem queueShape_lt {d : Queue} (h : QueueShape d) : d.ringSize < 65536 ∧ d.head < 65536 ∧ d.tail < 65536 := by
  rcases h with ⟨h0, -, hhead, htail⟩ | ⟨-, hhi, hhead, htail⟩ <;> omega

/-! ## QUERY QUEUE (R152) -/

theorem parametersOk_queryQueue {b : List Byte} (hop : adminOpcode b = 0x0B) :
    adminParametersOk b = true ↔ field b 8 8 % 64 = 0 ∧ field b 8 8 + 64 ≤ 2 ^ 48 := by
  have hop' : adminParametersOk b = (field b 8 8 % 64 == 0 && decide (field b 8 8 + 64 ≤ 2 ^ 48)) := by
    simp only [adminParametersOk, hop]
    rfl
  rw [hop', Bool.and_eq_true, beq_iff_eq, decide_eq_true_iff]

/-- The descriptor's part of the report, for a queue whose fields have their ranges. -/
theorem queueReport_head_fields {s : State} {q : WqId} {d : Queue} (hd : s.queue q = d) (hlevel : d.level ≤ 7)
    (hshape : QueueShape d) :
    field (queueReport s q) 0 1 = q.val + 1 ∧ field (queueReport s q) 1 1 = queueStateCode d.state
    ∧ field (queueReport s q) 2 1 = d.level ∧ field (queueReport s q) 3 1 = ringNumber d.ring
    ∧ field (queueReport s q) 4 1 = policyCode d.policy ∧ field (queueReport s q) 5 1 = slotCode d.slot
    ∧ field (queueReport s q) 6 1 = d.drain.toNat + 2 * d.hold.toNat ∧ field (queueReport s q) 7 1 = haltCauseCode d.haltCause
    ∧ field (queueReport s q) 8 2 = d.ringSize ∧ field (queueReport s q) 10 2 = d.head ∧ field (queueReport s q) 12 2 = d.tail
    ∧ field (queueReport s q) 14 2 = d.posted := by
  have hnumber : wqNumber q < 256 := by have := q.isLt; simp only [wqNumber]; omega
  have hflags : d.drain.toNat + 2 * d.hold.toNat < 256 := by have := d.drain.toNat_le; have := d.hold.toNat_le; omega
  have hlevel' : d.level < 256 := Nat.lt_of_le_of_lt hlevel (by decide)
  obtain ⟨hsize, hhead, htail⟩ := queueShape_lt hshape
  have hfields := reportHead_fields q d
  simp only [Nat.reducePow, Nat.mod_eq_of_lt, hnumber, queueStateCode_lt, hlevel', ringNumber_lt, policyCode_lt, slotCode_lt,
    hflags, haltCauseCode_lt, hsize, hhead, htail, posted_lt hshape] at hfields
  have head {off n : Nat} (h : off + n ≤ 16) : field (queueReport s q) off n = field (reportHead q d) off n :=
    hd ▸ queueReport_head h
  rwa [head (by decide), head (by decide), head (by decide), head (by decide), head (by decide), head (by decide),
    head (by decide), head (by decide), head (by decide), head (by decide), head (by decide), head (by decide)]

/-- Settles O28: the report's fields are those of its descriptor part (`queueReport_head_fields`) and its context part
(`queueReport_context_fields`, `queueReport_no_context`). -/
theorem queryQueueTakesTheReport : Obligations.QueryQueueTakesTheReport := by
  refine ⟨fun b s hop => ?_, fun b q s h hindex hsched hrings => ?_⟩
  · refine adminCheck_eq_verdictOf (by rw [hop]; rfl) ?_ (index_of_indexed ..) (not_congr (parametersOk_queryQueue hop))
      (stateRefusal_of_none s hop (by decide))
    rw [reserved_of_indexed (free := 16) (by rw [hop]; decide) (by decide) (by decide), noOption_iff]
  · have hdepth := stack_length_le hsched
    obtain ⟨-, -, -, -, hlevels⟩ := hsched
    obtain ⟨hnumber, hstate, hlevel, hring, hpolicy, hslot, hflags, hcause, hsize, hhead, htail, hposted⟩ :=
      queueReport_head_fields rfl (hlevels q) (hrings.1 q)
    refine ⟨queueReport s q, queueReport_length s q, hnumber, hstate.trans ?_, hlevel, hring.trans ?_, hpolicy.trans ?_,
      hslot.trans ?_, hflags.trans ?_, hcause.trans ?_, hsize, hhead, htail, hposted, fun hnone => ?_, queueReport_reserved s q,
      fun c ha hc => ?_, fun c above below hs hc ha habove => ?_, queueReport_tail s q, ?_⟩
    · cases (s.queue q).state <;> rfl
    · cases (s.queue q).ring <;> rfl
    · cases (s.queue q).policy <;> rfl
    · rcases (s.queue q).slot with _ | c | b
      · rfl
      · cases c <;> rfl
      · rfl
    · cases (s.queue q).drain <;> cases (s.queue q).hold <;> rfl
    · cases (s.queue q).haltCause <;> rfl
    · exact queueReport_no_context (contextPlace_none hnone)
    · exact queueReport_context_fields (contextPlace_active ha hc) (by decide) (by decide)
    · have hbelow : below.length + 1 < 256 := by
        rw [hs, List.length_append, List.length_cons] at hdepth
        omega
      exact queueReport_context_fields (contextPlace_stacked ha hs hc habove) (by decide) hbelow
    · refine row_waits rfl h (stateRefusal_of_none s h.opcode (by decide)) ?_ rfl
      rw [queryQueue, adminQueue_of_index hindex]
      rfl

end Sys2Proof.Machine
end

section
/-! PROOF. The admin unit takes a record up, reads it and checks it (R131 to R133, R135): the statements
TakeUpReservesAndFetches and AdminReadIsTakenOrHalts. -/

namespace Sys2Proof.Machine

/-! ## The take-up (R131) -/

theorem canTakeUp_of {s : State} (he : s.engine = .running) (ha : s.admin = .idle) (hhead : s.adminRing.head < s.adminRing.size)
    (htail : s.adminRing.tail < s.adminRing.size) (hne : s.adminRing.head ≠ s.adminRing.tail) (hf : 0 < freeEntries s) :
    canTakeUp s = true := by
  have hposted : 1 ≤ s.adminRing.posted := by
    rcases Nat.lt_or_gt_of_ne hne with h | h
    · have hsub : s.adminRing.tail + s.adminRing.size - s.adminRing.head
          = s.adminRing.tail - s.adminRing.head + s.adminRing.size := by omega
      rw [AdminRing.posted, postedCount, if_neg (by omega), hsub, Nat.add_mod_right, Nat.mod_eq_of_lt (by omega)]
      omega
    · rw [AdminRing.posted, postedCount, if_neg (by omega), Nat.mod_eq_of_lt (by omega)]
      omega
  simp [canTakeUp, he, ha, hposted, hasFree, hf]

theorem takeUp_of_canTakeUp {s : State} (h : canTakeUp s = true) :
    takeUp s = grantAll (settleClaim s { reserve .adminRecord 0 s with admin := .fetching s.adminRing.head false }) := by
  rw [takeUp, if_pos h]

/-- An IDLE admin unit has nothing to settle before a take-up. -/
theorem exec_takeUp {s : State} (ha : s.admin = .idle) : exec .takeUp s = .next (takeUp s) := by
  have hlook : lookDue s = false := lookDue_eq_false (by simp [ha])
  show Host.Outcome.next (takeUp (settleLook (settleRecord s))) = _
  rw [settleRecord_of_none (by simp [ha]), settleLook_of_not hlook]

/-- Settles O31. -/
theorem takeUpReservesAndFetches : Obligations.TakeUpReservesAndFetches := by
  intro s he ha hhead htail hne hf base
  have htake : takeUp s = grantAll (settleClaim s base) := takeUp_of_canTakeUp (canTakeUp_of he ha hhead htail hne hf)
  refine ⟨fun hd => ⟨_, exec_takeUp ha, ?_⟩, fun hd => ⟨_, exec_takeUp ha, ?_⟩⟩
  · rw [htake, settleClaim_of_not base hd]
  · rw [htake, settleClaim_of_deferred base hd]

/-! ## The resolution of the record's read (R132, R133) -/

section
variable {s : State} {i : Nat} {out : Bool}

theorem adminRecordTakes_data (b : List Byte) (ha : s.admin = .fetching i out) :
    let x : State := { s with adminRing := { s.adminRing with head := (s.adminRing.head + 1) % s.adminRing.size } }
    adminRecordTakes (.data b) s = { x with admin := .executing b (.checked (adminCheck x b)) } := by
  simp only [adminRecordTakes, ha]

/-- A failed read leaves the FETCH_ERROR entry of its index (R120, R133). -/
theorem adminRecordTakes_failure {r : Resolution} (tg : TagId) (hr : r = .error ∨ r = .timeout) (ha : s.admin = .fetching i out) :
    adminRecordTakes r (handed tg r s) =
      selectOnFree s
        (withEntry 0
          ⟨.fetchError, if r = .timeout then .fetchTimeout else .fetchError, 0, 0, i, 0, s.adminRing.base + 64 * i⟩ false
          { handed tg r s with admin := .halted i, reserved := removeHolder .adminRecord s.reserved }) := by
  have hfetching : (handed tg r s).admin = .fetching i out := (handed_admin tg r s).trans ha
  rw [← selectOnFree_congr _ (handed_freeEntries tg r s)]
  rcases hr with rfl | rfl <;> simp only [adminRecordTakes, hfetching, place_eq_withEntry] <;> rfl

end

/-- Settles O39: the admin unit is handed the resolution (`exec_answerOf`), which it takes as a record (`adminRecordTakes_data`)
or is halted by (`adminRecordTakes_failure`). -/
theorem adminReadIsTakenOrHalts : Obligations.AdminReadIsTakenOrHalts := by
  intro tg ad n tm i out s hready htag hadmin
  refine ⟨fun b hn => ?_, fun r hr => ?_⟩
  · subst hn
    intro x
    obtain ⟨t, ht, hends⟩ := exec_answerOf (.data b) hready htag
    rw [takenAs_data_self] at hends
    exact ⟨t, ht, adminRecordTakes_data b hadmin ▸ hends⟩
  · obtain ⟨t, ht, hends⟩ := exec_answerOf r hready htag
    have htaken : takenAs .read n r = r := by rcases hr with rfl | rfl <;> rfl
    rw [htaken] at hends
    exact ⟨t, ht, adminRecordTakes_failure tg hr hadmin ▸ hends⟩

end Sys2Proof.Machine
end

section
/-! PROOF. What RUN, the root read, the grace timer and the units can be, engine state by engine state
(R154, R156, R158, R164); and that the admin unit's commands and the scheduler keep it. -/

namespace Sys2Proof.Machine

/-! ## The law, engine state by engine state -/

/-- Every unit is idle, nothing is stacked, and the grace timer is stopped. -/
def Resting (s : State) : Prop :=
  s.active = none ∧ s.segment = none ∧ s.fetch = none ∧ s.admin = .idle ∧ s.stack = [] ∧ s.graceTimer = .stopped

/-- RUN and the root read in STOPPED, FAILED and STARTING (R156, R158). -/
def RestControl (s : State) : Prop :=
  (s.engine = .stopped ∧ s.rootRead = .none ∧ s.run = false)
  ∨ (s.engine = .failed ∧ s.rootRead = .none ∧ s.run = true)
  ∨ (s.engine = .starting ∧ s.rootRead ≠ .none ∧ (s.rootRead = .waiting → s.run = true))

/-- Engine control in RUNNING. -/
def RunningControl (s : State) : Prop :=
  s.engine = .running ∧ s.rootRead = .none ∧ s.run = true ∧ s.graceTimer = .stopped

/-- Engine control in STOPPING, where nothing is stacked and a grace timer that has started finds the units idle (R46, R164). -/
def StoppingControl (s : State) : Prop :=
  s.engine = .stopping ∧ s.rootRead = .none ∧ s.stack = [] ∧ (s.graceTimer ≠ .stopped → unitsIdle s = true)

theorem unitsIdle_of_resting {s : State} (h : Resting s) : unitsIdle s = true := by
  obtain ⟨hact, hseg, hfetch, hadmin, -, -⟩ := h
  exact (unitsIdle_iff s).mpr ⟨hact, hseg, hfetch, .inl hadmin⟩

theorem RestControl.engine_ne {s : State} (h : RestControl s) : s.engine ≠ .running ∧ s.engine ≠ .stopping := by
  rcases h with ⟨he, -⟩ | ⟨he, -⟩ | ⟨he, -⟩ <;> simp [he]

theorem engineLaw_iff (s : State) :
    EngineLaw s ↔ (RestControl s ∧ Resting s) ∨ RunningControl s ∨ StoppingControl s := by
  constructor
  · rintro ⟨hstopped, hrunning, hfailed, hstarting, hwaits, hgrace, hstack, hrest⟩
    have hroot (he : s.engine ≠ .starting) : s.rootRead = .none := by
      by_contra hr
      exact he (hstarting.mpr hr)
    have htimer (he : s.engine ≠ .stopping) : s.graceTimer = .stopped := by
      by_contra hg
      exact he (hgrace hg).1
    have hresting (h1 : s.engine ≠ .running) (h2 : s.engine ≠ .stopping) : Resting s := by
      obtain ⟨hact, hseg, hfetch, hadmin⟩ := hrest h1 h2
      exact ⟨hact, hseg, hfetch, hadmin, hstack h1, htimer h2⟩
    cases he : s.engine with
    | stopped =>
      exact .inl ⟨.inl ⟨he, hroot (by simp [he]), hstopped he⟩, hresting (by simp [he]) (by simp [he])⟩
    | failed =>
      exact .inl ⟨.inr (.inl ⟨he, hroot (by simp [he]), hfailed he⟩), hresting (by simp [he]) (by simp [he])⟩
    | starting =>
      exact .inl ⟨.inr (.inr ⟨he, hstarting.mp he, hwaits⟩), hresting (by simp [he]) (by simp [he])⟩
    | running => exact .inr (.inl ⟨he, hroot (by simp [he]), hrunning he, htimer (by simp [he])⟩)
    | stopping =>
      exact .inr (.inr ⟨he, hroot (by simp [he]), hstack (by simp [he]), fun hg => (hgrace hg).2⟩)
  · rintro (⟨hc, hact, hseg, hfetch, hadmin, hstack, hg⟩ | ⟨he, hr, hrun, hg⟩ | ⟨he, hr, hstack, hidle⟩)
    · rcases hc with ⟨he, hr, hrun⟩ | ⟨he, hr, hrun⟩ | ⟨he, hr, hrun⟩ <;> simp_all [EngineLaw]
    · simp [EngineLaw, he, hr, hrun, hg]
    · simp_all [EngineLaw]

/-! ## Frames -/

/-- What of a host part no admin command and no act of the scheduler changes. -/
structure SteadyPart where
  pending : List Instr
  heldEvents : Nat
  resetTurn : Nat
  engine : EngineState
  run : Bool
  rootRead : RootRead
  graceTimer : GraceTimer

def HostPart.steady (h : HostPart) : SteadyPart :=
  { pending := h.pending, heldEvents := h.heldEvents, resetTurn := h.resetTurn
    engine := h.engine, run := h.run, rootRead := h.rootRead, graceTimer := h.graceTimer }

/-- `t` is `s` after something that leaves engine control alone and, outside RUNNING, puts nothing on an empty stack. -/
structure Steady (s t : State) : Prop where
  control : t.hostPart.steady = s.hostPart.steady
  stack : s.engine ≠ .running → s.stack = [] → t.stack = []

theorem Steady.engine {s t : State} (h : Steady s t) : t.engine = s.engine := congrArg SteadyPart.engine h.control
theorem Steady.run {s t : State} (h : Steady s t) : t.run = s.run := congrArg SteadyPart.run h.control
theorem Steady.rootRead {s t : State} (h : Steady s t) : t.rootRead = s.rootRead := congrArg SteadyPart.rootRead h.control
theorem Steady.graceTimer {s t : State} (h : Steady s t) : t.graceTimer = s.graceTimer := congrArg SteadyPart.graceTimer h.control

theorem Steady.refl (s : State) : Steady s s := ⟨rfl, fun _ => id⟩

theorem Steady.trans {s t u : State} (h : Steady s t) (k : Steady t u) : Steady s u :=
  ⟨k.control.trans h.control, fun he hs => k.stack (h.engine ▸ he) (h.stack he hs)⟩

/-- A step after one whose start and end agree in what it looks at. -/
theorem Steady.after {s t u : State} (k : Steady t u) (h : Steady s t) : Steady s u := h.trans k

theorem Steady.of_parts {s t : State} (hh : t.hostPart = s.hostPart) (hm : t.moverPart = s.moverPart) : Steady s t :=
  ⟨congrArg HostPart.steady hh, fun _ hs => (congrArg (fun m => m.2.1) hm).trans hs⟩

/-- A unit that is not idle works in RUNNING or STOPPING, and keeps the grace timer from starting (R164). -/
theorem EngineLaw.of_busy {s t : State} (h : EngineLaw s) (hb : unitsIdle s = false) (k : Steady s t) : EngineLaw t := by
  rw [engineLaw_iff] at h ⊢
  rcases h with ⟨-, hrest⟩ | ⟨he, hr, hrun, hg⟩ | ⟨he, hr, hstack, hidle⟩
  · simp [unitsIdle_of_resting hrest] at hb
  · exact .inr (.inl ⟨k.engine.trans he, k.rootRead.trans hr, k.run.trans hrun, k.graceTimer.trans hg⟩)
  · have hg : s.graceTimer = .stopped := by
      by_contra hg
      simp [hidle hg] at hb
    exact .inr (.inr ⟨k.engine.trans he, k.rootRead.trans hr, k.stack (by simp [he]) hstack,
      fun hn => absurd (k.graceTimer.trans hg) hn⟩)

/-- In RUNNING the law says nothing of the units. -/
theorem EngineLaw.of_running {s t : State} (h : EngineLaw s) (he : s.engine = .running)
    (hc : t.hostPart.steady = s.hostPart.steady) : EngineLaw t := by
  have k : Steady s t := ⟨hc, fun hn => absurd he hn⟩
  rw [engineLaw_iff] at h ⊢
  rcases h with ⟨hc, -⟩ | ⟨-, hr, hrun, hg⟩ | ⟨hs, -⟩
  · exact absurd he hc.engine_ne.1
  · exact .inr (.inl ⟨k.engine.trans he, k.rootRead.trans hr, k.run.trans hrun, k.graceTimer.trans hg⟩)
  · cases he.symm.trans hs

theorem unitsIdle_of_active {s : State} {c : Context} (h : s.active = some c) : unitsIdle s = false := by simp [unitsIdle, h]
theorem unitsIdle_of_fetch {s : State} {f : Fetch} (h : s.fetch = some f) : unitsIdle s = false := by simp [unitsIdle, h]

theorem unitsIdle_of_adminHolds {s : State} (h : adminHolds s = true) : unitsIdle s = false := by
  unfold adminHolds at h
  rw [Bool.eq_false_iff, Ne, unitsIdle_iff]
  rintro ⟨-, -, -, hi | ⟨i, hi⟩⟩ <;> simp [hi] at h

/-! ## The scheduler -/

/-- The engine with a context in the mover is RUNNING or STOPPING. -/
theorem EngineLaw.running_of_active {s : State} {c : Context} (h : EngineLaw s) (ha : s.active = some c)
    (hs : s.engine ≠ .stopping) : s.engine = .running := by
  by_contra hr
  obtain ⟨-, -, -, -, -, -, -, hrest⟩ := h
  simp [(hrest hr hs).1] at ha

theorem endActive_steady {s : State} (st : Status) (sub : Sub) (p d : Nat) : Steady s (endActive st sub p d s) :=
  ⟨congrArg HostPart.steady (endActive_hostPart ..),
    fun _ hs => (congrArg (fun m => m.2.1) (endActive_moverPart st sub p d s)).trans hs⟩

/-- Every act of the scheduler keeps the law of the engine states. -/
theorem scheduler_engineLaw : SchedulerKeeps EngineLaw where
  claims _ _ h := h
  level _ h := h
  advance _ h ha := h.of_busy (unitsIdle_of_active ha) ⟨rfl, fun _ => id⟩
  segment _ h ha := h.of_busy (unitsIdle_of_active ha) ⟨rfl, fun _ => id⟩
  ends _ _ _ _ h ha := h.of_busy (unitsIdle_of_active ha) (endActive_steady ..)
  start h he _ _ := h.of_running he (congrArg HostPart.steady (makeActive_hostPart ..))
  resume h he _ _ := h.of_running he rfl
  preempt h ha hs _ := h.of_running (h.running_of_active ha hs) (congrArg HostPart.steady (makeActive_hostPart ..))

theorem select_steady (s : State) : Steady s (select s) :=
  ⟨congrArg HostPart.steady (select_hostPart s), fun he hs => by rwa [select_of_not_running he]⟩

theorem claimFreed_steady (s : State) : Steady s (claimFreed s) := by
  rcases claimFreed_cases s with h | ⟨_, _, h | h⟩ <;> rw [h]
  · exact select_steady s
  · exact (select_steady _).after ⟨rfl, fun _ => id⟩
  · exact ⟨rfl, fun _ => id⟩

theorem selectOnFree_steady (a s : State) : Steady s (selectOnFree a s) := by
  unfold selectOnFree
  split
  · exact claimFreed_steady s
  · exact .refl s

theorem selectOnIdle_steady (a s : State) : Steady s (selectOnIdle a s) := by
  unfold selectOnIdle
  split
  · exact .refl s
  · exact select_steady s

/-! ## Admin commands -/

theorem setQueue_steady (s : State) (q : WqId) (d : Queue) : Steady s (s.setQueue q d) := .of_parts rfl rfl

theorem setRing_steady (s : State) (c : CqId) (r : Ring) : Steady s (s.setRing c r) := .of_parts rfl rfl

theorem completeAdmin_steady (b : List Byte) (st : Status) (sub : Sub) (d : Nat) (s : State) :
    Steady s (completeAdmin b st sub d s) := .of_parts (completeAdmin_hostPart ..) (completeAdmin_moverPart ..)

theorem emptySlot_steady (q : WqId) (s : State) : Steady s (emptySlot q s) :=
  .of_parts (emptySlot_hostPart ..) (emptySlot_moverPart ..)

theorem waitFor_steady (b : List Byte) (p : AdminPoint) (s : State) : Steady s (waitFor b p s) := .of_parts rfl rfl

theorem setEngine_steady (b : List Byte) (s : State) : Steady s (setEngine b s) :=
  (completeAdmin_steady ..).after ⟨rfl, fun _ => id⟩

theorem configureQueue_steady (b : List Byte) (s : State) : Steady s (configureQueue b s) :=
  (setQueue_steady ..).trans (completeAdmin_steady ..)

theorem enableQueue_steady (b : List Byte) (s : State) : Steady s (enableQueue b s) := by
  unfold enableQueue
  dsimp only
  split
  · exact (setQueue_steady ..).trans ((completeAdmin_steady ..).trans (selectOnIdle_steady ..))
  · exact completeAdmin_steady ..

theorem applyDisable_steady {b : List Byte} {q : WqId} {s t : State} (h : applyDisable b q s = some t) : Steady s t := by
  have hdone (sub : Sub) {u : State} (hu : Steady s u) (e : some (completeAdmin b .ok sub 0 u) = some t) : Steady s t :=
    Option.some.inj e ▸ hu.trans (completeAdmin_steady ..)
  have hnow : Steady s (disabledNow q s) := (emptySlot_steady q s).trans (setQueue_steady ..)
  have hdrain : Steady s (drainRequested q s) := (emptySlot_steady ..).after (.of_parts rfl rfl)
  unfold applyDisable at h
  dsimp only at h
  split at h
  · exact hdone _ (.refl s) h
  · exact hdone _ hnow h
  · exact hdone _ hnow h
  all_goals
    split_ifs at h
    · exact hdone _ (.refl s) h
    · exact hdone _ (.refl s) h
    · exact hdone _ hdrain h

theorem disableQueue_steady (b : List Byte) (s : State) : Steady s (disableQueue b s) := by
  unfold disableQueue
  split
  · next ht => exact applyDisable_steady ht
  · exact waitFor_steady ..

theorem finishAbort_steady (b : List Byte) (q : WqId) (sub : Sub) (s : State) : Steady s (finishAbort b q sub s) :=
  .of_parts (finishAbort_hostPart ..) (finishAbort_moverPart ..)

theorem abortStacked_steady (c : Context) (s : State) : Steady s (abortStacked c s) := by
  refine Steady.trans (t := { s with stack := s.stack.eraseP fun p => p.queue == c.queue }) ⟨rfl, fun _ hs => ?_⟩
    (.of_parts (endContext_hostPart ..) (endContext_moverPart ..))
  simp [hs]

theorem abortQueue_steady (b : List Byte) (s : State) : Steady s (abortQueue b s) := by
  unfold abortQueue
  dsimp only
  split
  · exact (setQueue_steady ..).trans (waitFor_steady ..)
  · split
    · exact (abortStacked_steady ..).trans (finishAbort_steady ..)
    · exact finishAbort_steady ..

theorem resumeQueue_steady (b : List Byte) (s : State) : Steady s (resumeQueue b s) :=
  (setQueue_steady ..).trans ((completeAdmin_steady ..).trans (selectOnIdle_steady ..))

theorem configureCq_steady (b : List Byte) (s : State) : Steady s (configureCq b s) :=
  (setRing_steady ..).trans (completeAdmin_steady ..)

theorem handUpdate_steady (u : ApertureUpdate) (b : List Byte) (s : State) : Steady s (handUpdate u b s) := by
  unfold handUpdate applyUpdate
  split
  · exact .of_parts rfl rfl
  · dsimp only
    split <;> exact (completeAdmin_steady ..).after (.of_parts rfl rfl)

theorem foldl_steady {α : Type} {f : State → α → State} (hf : ∀ s x, Steady s (f s x)) (l : List α) (s : State) :
    Steady s (l.foldl f s) := by
  induction l generalizing s with
  | nil => exact .refl s
  | cons x xs ih => exact (hf s x).trans (ih _)

theorem clearCounters_steady (s : State) : Steady s (clearCounters s) := by
  have hqueues : Steady s (queuesCleared s) := by
    unfold queuesCleared
    generalize allQueues = l
    exact foldl_steady (fun t q => setQueue_steady t q _) l s
  have hrings (u : State) : Steady u (ringsCleared u) := by
    unfold ringsCleared
    generalize allRings = l
    exact foldl_steady (fun t c => setRing_steady t c _) l u
  have hengine (u : State) : Steady u { u with counters := EngineCounters.reset } := ⟨rfl, fun _ => id⟩
  rw [clearCounters_eq]
  exact hqueues.trans ((hrings _).trans (hengine _))

theorem readStatistics_steady (b : List Byte) (s : State) : Steady s (readStatistics b s) := by
  unfold readStatistics
  dsimp only
  split
  · exact (clearCounters_steady s).trans (waitFor_steady ..)
  · exact waitFor_steady ..

theorem queryQueue_steady (b : List Byte) (s : State) : Steady s (queryQueue b s) := waitFor_steady ..

theorem markRecord_steady (b : List Byte) (s : State) : Steady s (markRecord b s) := completeAdmin_steady ..

theorem ite_steady {p : Prop} [Decidable p] {f g : State → State} {s : State} (hf : Steady s (f s)) (hg : Steady s (g s)) :
    Steady s ((if p then f else g) s) := by
  split
  · exact hf
  · exact hg

/-- Each of the twelve commands (R136). -/
theorem carryOut_steady (b : List Byte) (s : State) : Steady s (carryOut b s) :=
  ite_steady (setEngine_steady b s) <|
  ite_steady (configureQueue_steady b s) <|
  ite_steady (enableQueue_steady b s) <|
  ite_steady (disableQueue_steady b s) <|
  ite_steady (abortQueue_steady b s) <|
  ite_steady (resumeQueue_steady b s) <|
  ite_steady (configureCq_steady b s) <|
  ite_steady (handUpdate_steady _ b s) <|
  ite_steady (handUpdate_steady _ b s) <|
  ite_steady (readStatistics_steady b s) <|
  ite_steady (queryQueue_steady b s) <|
  markRecord_steady b s

end Sys2Proof.Machine
end

section
/-! PROOF. Engine control, the grants and the register port keep the law of the engine states (R154, R156, R158 to R165). -/

namespace Sys2Proof.Machine

/-! ## Grants -/

theorem unitsIdle_unissued (s : State) : unitsIdle s.unissued = unitsIdle s := by
  simp only [unitsIdle, State.unissued, Option.isNone_map]
  congr 1
  cases s.admin with
  | executing b p => cases p <;> rfl
  | _ => rfl

theorem resting_unissued (s : State) : Resting s.unissued ↔ Resting s := by
  have hadmin : s.unissued.admin = .idle ↔ s.admin = .idle := by
    simp only [State.unissued]
    cases s.admin with
    | executing b p => cases p <;> simp [AdminState.unissued]
    | _ => simp [AdminState.unissued]
  unfold Resting
  rw [hadmin]
  simp [State.unissued]

theorem rootRead_unissued (s : State) : s.unissued.rootRead = .none ↔ s.rootRead = .none := by
  simp only [State.unissued]
  cases s.rootRead <;> simp

theorem markIssued_rootRead (o : Owner) (s : State) :
    (markIssued o s).rootRead = s.rootRead ∨ (markIssued o s).rootRead = .issued := by
  cases o with
  | completion c => exact .inl rfl
  | rootRead => exact .inr rfl
  | adminRecord => simp only [markIssued]; split <;> exact .inl rfl
  | adminWrite k => simp only [markIssued]; split <;> exact .inl rfl
  | fetch => simp only [markIssued]; split <;> exact .inl rfl
  | mover k => simp only [markIssued]; split <;> exact .inl rfl

theorem issue_rootRead (t : TagId) (a : Ask) (s : State) :
    (issue t a s).rootRead = s.rootRead ∨ (issue t a s).rootRead = .issued := markIssued_rootRead ..

/-- A root read that waits after a grant waited before it. -/
theorem grantOne_rootRead {s t : State} (ht : grantOne s = some t) (hw : t.rootRead = .waiting) : s.rootRead = .waiting := by
  unfold grantOne at ht
  split at ht
  · cases ht
    rcases issue_rootRead _ _ s with h | h
    · exact h.symm.trans hw
    · cases h.symm.trans hw
  · cases ht

theorem grantOne_engineLaw {s t : State} (h : EngineLaw s) (ht : grantOne s = some t) : EngineLaw t := by
  have k := grantOne_onlyIssues ht
  obtain ⟨-, hrun, -, -, -, -, hengine, -, -, -, hgrace, -, -, -, -, -, hstack, -⟩ := k.fields
  have hroot : t.rootRead = .none ↔ s.rootRead = .none := by rw [← rootRead_unissued t, k.1, rootRead_unissued]
  have hidle : unitsIdle t = unitsIdle s := by rw [← unitsIdle_unissued t, k.1, unitsIdle_unissued]
  have hrest : Resting t ↔ Resting s := by rw [← resting_unissued t, k.1, resting_unissued]
  rw [engineLaw_iff] at h ⊢
  rw [RestControl, RunningControl, StoppingControl, hrest, hidle, hengine, hroot, hrun, hgrace, hstack]
  refine h.imp_left fun ⟨hc, hr⟩ => ⟨hc.imp_right fun hc => hc.imp_right fun ⟨he, hn, hw⟩ => ⟨he, ?_, ?_⟩, hr⟩
  · exact mt hroot.mp hn
  · exact fun hwaits => hw (grantOne_rootRead ht hwaits)

theorem grantAll_engineLaw {s : State} (h : EngineLaw s) : EngineLaw (grantAll s) := by
  unfold grantAll
  generalize 32 = n
  induction n generalizing s with
  | zero => exact h
  | succ n ih =>
    unfold grantLoop
    split
    · next t ht => exact ih (grantOne_engineLaw h ht)
    · exact h

/-! ## The start (R158 to R161) -/

theorem enterStarting_engineLaw {s : State} (hrest : Resting s) (hroot : s.rootRead = .none) (hrun : s.run = true) :
    EngineLaw (enterStarting s) := by
  unfold enterStarting
  dsimp only
  split
  · exact (engineLaw_iff _).mpr (.inl ⟨.inr (.inr ⟨rfl, nofun, fun _ => hrun⟩), hrest⟩)
  · exact (engineLaw_iff _).mpr (.inl ⟨.inr (.inl ⟨rfl, hroot, hrun⟩), hrest⟩)

/-- A root read that waits or is out finds the engine in STARTING, with every unit idle. -/
theorem EngineLaw.resting_of_rootRead {s : State} (h : EngineLaw s) (hr : s.rootRead ≠ .none) : Resting s := by
  rcases (engineLaw_iff s).mp h with ⟨-, hrest⟩ | ⟨-, hn, -⟩ | ⟨-, hn, -⟩
  · exact hrest
  · exact absurd hn hr
  · exact absurd hn hr

theorem rootResolved_engineLaw {s : State} (r : Resolution) (h : EngineLaw s) : EngineLaw (rootResolved r s) := by
  unfold rootResolved
  split
  · next hi =>
    have hrest : Resting s := h.resting_of_rootRead (by simp [hi])
    have hrunning (b : List Byte) (hrun : s.run = true) : EngineLaw (enterRunning b { s with rootRead := .none }) := by
      obtain ⟨-, -, -, -, -, hgrace⟩ := hrest
      exact (engineLaw_iff _).mpr (.inr (.inl ⟨rfl, rfl, hrun, hgrace⟩))
    have hfailed (hrun : s.run = true) (c : FailCause) :
        EngineLaw { s with rootRead := .none, engine := .failed, cause := c } :=
      (engineLaw_iff _).mpr (.inl ⟨.inr (.inl ⟨rfl, rfl, hrun⟩), hrest⟩)
    have hstopped (hrun : ¬ s.run = true) (c : FailCause) :
        EngineLaw { s with rootRead := .none, engine := .stopped, cause := c } :=
      (engineLaw_iff _).mpr (.inl ⟨.inl ⟨rfl, rfl, Bool.eq_false_iff.mpr hrun⟩, hrest⟩)
    dsimp only
    split
    · split
      · next hrun =>
        split
        · exact scheduler_engineLaw.select (hrunning _ hrun)
        · exact hfailed hrun _
      · next hrun => exact hstopped hrun _
    · split
      · next hrun => exact hfailed hrun _
      · next hrun => exact hstopped hrun _
  · exact h

/-! ## The stop (R163 to R165) -/

theorem endStackStopped_hostPart (l : List Context) (s : State) : (endStackStopped l s).hostPart = s.hostPart := by
  induction l generalizing s with
  | nil => rfl
  | cons c rest ih => exact (ih _).trans (endContext_hostPart ..)

theorem endStackStopped_stack (l : List Context) (s : State) : (endStackStopped l s).stack = [] := by
  induction l generalizing s with
  | nil => rfl
  | cons c rest ih => exact ih _

theorem stopQueue_steady (q : WqId) (s : State) : Steady s (stopQueue q s) := by
  unfold stopQueue
  dsimp only
  split
  · exact (emptySlot_steady ..).trans (setQueue_steady ..)
  · exact emptySlot_steady ..

/-- STOPPING just entered, with the stacked contexts ended (R46). -/
def stackStopped (s : State) : State := endStackStopped s.stack { s with engine := .stopping, claimDeferred := false }

theorem stackStopped_hostPart (s : State) :
    (stackStopped s).hostPart = { s with engine := .stopping, claimDeferred := false }.hostPart := endStackStopped_hostPart ..

theorem enterStopping_steady (s : State) : Steady (stackStopped s) (enterStopping s) :=
  foldl_steady (fun t q => stopQueue_steady q t) _ (stackStopped s)

/-- STOPPING is entered with nothing stacked and the rest of engine control as it stood. -/
theorem enterStopping_engineLaw {s : State} (hroot : s.rootRead = .none) (hg : s.graceTimer = .stopped) :
    EngineLaw (enterStopping s) := by
  have k := enterStopping_steady s
  have hhost := stackStopped_hostPart s
  have hengine : (stackStopped s).engine = .stopping := congrArg HostPart.engine hhost
  refine (engineLaw_iff _).mpr (.inr (.inr ⟨k.engine.trans hengine, ?_, ?_, fun hn => absurd ?_ hn⟩))
  · exact k.rootRead.trans ((congrArg HostPart.rootRead hhost).trans hroot)
  · exact k.stack (by simp [hengine]) (endStackStopped_stack ..)
  · exact k.graceTimer.trans ((congrArg HostPart.graceTimer hhost).trans hg)

theorem atRest_resting {s : State} (hidle : unitsIdle s = true) (hstack : s.stack = []) : Resting (atRest s) := by
  obtain ⟨hact, hseg, hfetch, hadmin⟩ := (unitsIdle_iff s).mp hidle
  refine ⟨hact, hseg, hfetch, ?_, hstack, rfl⟩
  rcases hadmin with h | ⟨i, h⟩ <;> simp [atRest, h]

theorem reachStopped_engineLaw {s : State} (hidle : unitsIdle s = true) (hroot : s.rootRead = .none) (hstack : s.stack = []) :
    EngineLaw (reachStopped s) := by
  have hrest := atRest_resting hidle hstack
  have hreach : reachStopped s = if s.run = true then enterStarting (atRest s) else atRest s := rfl
  rw [hreach]
  split
  · next hrun => exact enterStarting_engineLaw hrest hroot hrun
  · next hrun => exact (engineLaw_iff _).mpr (.inl ⟨.inl ⟨rfl, hroot, Bool.eq_false_iff.mpr hrun⟩, hrest⟩)

/-- All that a stop's progress can do: nothing, the start of the grace timer, or STOPPED, where what is left has been dropped once
the grace has expired. -/
theorem stopProgress_cases (s : State) :
    stopProgress s = s
    ∨ (s.engine = .stopping ∧ unitsIdle s = true ∧ stopProgress s = { s with graceTimer := .running s.stopGrace })
    ∨ (s.engine = .stopping ∧ (s.graceTimer ≠ .stopped ∨ unitsIdle s = true)
        ∧ (stopProgress s = reachStopped s ∨ stopProgress s = reachStopped (dropOccupied s))) := by
  by_cases he : s.engine = .stopping
  · cases hg : s.graceTimer with
    | stopped =>
      cases hi : unitsIdle s with
      | false => exact .inl (stopProgress_waits he hg hi)
      | true =>
        by_cases ho : s.occupied = []
        · exact .inr (.inr ⟨he, .inr rfl, .inl (stopProgress_done he (.inl ⟨hg, hi⟩) ho)⟩)
        · exact .inr (.inl ⟨he, rfl, stopProgress_starts he hg hi ho⟩)
    | running ms =>
      by_cases ho : s.occupied = []
      · exact .inr (.inr ⟨he, .inl nofun, .inl (stopProgress_done he (.inr ⟨ms, hg⟩) ho)⟩)
      · exact .inl (stopProgress_runs he hg ho)
    | expired =>
      by_cases ho : ∃ o ∈ s.occupied, o.inFlight = true
      · exact .inl (stopProgress_expired_waits he hg ho)
      · exact .inr (.inr ⟨he, .inl nofun, .inr (stopProgress_expired_done he hg (by simpa using ho))⟩)
  · exact .inl (stopProgress_of_not_stopping he)

theorem EngineLaw.stopping {s : State} (h : EngineLaw s) (he : s.engine = .stopping) : StoppingControl s := by
  rcases (engineLaw_iff s).mp h with ⟨hc, -⟩ | ⟨hn, -⟩ | hs
  · exact absurd he hc.engine_ne.2
  · cases he.symm.trans hn
  · exact hs

theorem stopProgress_engineLaw {s : State} (h : EngineLaw s) : EngineLaw (stopProgress s) := by
  rcases stopProgress_cases s with hp | ⟨he, hi, hp⟩ | ⟨he, hi, hp⟩
  · rwa [hp]
  · obtain ⟨-, hroot, hstack, -⟩ := h.stopping he
    rw [hp]
    exact (engineLaw_iff _).mpr (.inr (.inr ⟨he, hroot, hstack, fun _ => hi⟩))
  · obtain ⟨-, hroot, hstack, hgrace⟩ := h.stopping he
    have hidle : unitsIdle s = true := hi.elim hgrace id
    rcases hp with hp | hp <;> rw [hp]
    · exact reachStopped_engineLaw hidle hroot hstack
    · exact reachStopped_engineLaw (s := dropOccupied s) hidle hroot hstack

theorem finishStep_engineLaw {s : State} (h : EngineLaw s) : EngineLaw (finishStep s) :=
  grantAll_engineLaw (stopProgress_engineLaw h)

/-! ## CONTROL (R155, R156) -/

theorem reset_engineLaw : EngineLaw State.reset :=
  (engineLaw_iff _).mpr (.inl ⟨.inl ⟨rfl, rfl, rfl⟩, rfl, rfl, rfl, rfl, rfl, rfl⟩)

theorem runTo1_engineLaw {s : State} (n : Bool) (h : EngineLaw s) (hrun : s.run = false) :
    EngineLaw (runTo1 { s with run := true, notifyEnable := n }) := by
  unfold runTo1
  rcases (engineLaw_iff s).mp h with ⟨⟨he, hr, -⟩ | ⟨-, -, hn⟩ | ⟨he, hr, -⟩, hrest⟩ | ⟨-, -, hn, -⟩ | ⟨he, hr, hstack, hidle⟩
  · simp only [he]
    exact grantAll_engineLaw (enterStarting_engineLaw hrest hr rfl)
  · cases hrun.symm.trans hn
  · simp only [he]
    exact (engineLaw_iff _).mpr (.inl ⟨.inr (.inr ⟨rfl, hr, fun _ => rfl⟩), hrest⟩)
  · cases hrun.symm.trans hn
  · simp only [he]
    exact (engineLaw_iff _).mpr (.inr (.inr ⟨rfl, hr, hstack, hidle⟩))

theorem runTo0_engineLaw {s : State} (n : Bool) (h : EngineLaw s) (hrun : s.run = true) :
    EngineLaw (runTo0 { s with run := false, notifyEnable := n }) := by
  unfold runTo0
  rcases (engineLaw_iff s).mp h with ⟨⟨-, -, hn⟩ | ⟨he, hr, -⟩ | ⟨he, hr, -⟩, hrest⟩ | ⟨he, hr, -, hg⟩ | ⟨he, hr, hstack, hidle⟩
  · cases hrun.symm.trans hn
  · simp only [he]
    exact (engineLaw_iff _).mpr (.inl ⟨.inl ⟨rfl, hr, rfl⟩, hrest⟩)
  · simp only [he]
    split
    · exact (engineLaw_iff _).mpr (.inl ⟨.inl ⟨rfl, rfl, rfl⟩, hrest⟩)
    · next hw => exact (engineLaw_iff _).mpr (.inl ⟨.inr (.inr ⟨rfl, hr, fun h => absurd h hw⟩), hrest⟩)
  · simp only [he]
    exact finishStep_engineLaw (enterStopping_engineLaw hr hg)
  · simp only [he]
    exact (engineLaw_iff _).mpr (.inr (.inr ⟨rfl, hr, hstack, hidle⟩))

theorem writeControl_engineLaw {s : State} (v : Reg) (h : EngineLaw s) : EngineLaw (writeControl v s) := by
  unfold writeControl
  split
  · exact reset_engineLaw
  · dsimp only
    split
    · next hsame =>
      rw [hsame]
      exact h
    · next hchange =>
      split
      · next hv =>
        rw [hv] at hchange ⊢
        exact runTo1_engineLaw _ h (Bool.eq_false_iff.mpr (Ne.symm hchange))
      · next hv =>
        rw [Bool.eq_false_iff.mpr hv] at hchange ⊢
        exact runTo0_engineLaw _ h (Bool.eq_true_of_not_eq_false (Ne.symm hchange))

end Sys2Proof.Machine
end

section
/-! PROOF. Every event keeps the law of the engine states: the statement EveryStepKeepsTheEngineLaw. -/

namespace Sys2Proof.Machine

/-! ## The register port -/

theorem unlessHeld_engineLaw {f : State → State} (hf : ∀ s, EngineLaw s → EngineLaw (f s)) {s : State} (h : EngineLaw s) :
    EngineLaw (unlessHeld f s) := by
  unfold unlessHeld
  split
  · exact hf s h
  · exact h

theorem writePost_engineLaw {s : State} (v : Reg) (h : EngineLaw s) : EngineLaw (writePost v s) := by
  unfold writePost
  split
  · exact h
  · split
    · unfold postToAdmin
      dsimp only
      split
      · next hc => exact h.of_running hc.1 rfl
      · exact h
    · unfold postToQueue
      dsimp only
      split <;> exact h

theorem writeAck_engineLaw {s : State} (v : Reg) (h : EngineLaw s) : EngineLaw (writeAck v s) := by
  unfold writeAck
  dsimp only
  split
  · exact h
  · split
    · refine grantAll_engineLaw ?_
      exact h
    · exact h

theorem portAccess_engineLaw {s : State} (a : Access) (h : EngineLaw s) : EngineLaw (portAccess a s) := by
  have hwrite (offset : Nat) (v : Reg) (t : State) (ht : EngineLaw t) : EngineLaw (portWrite offset v t) := by
    unfold portWrite
    split_ifs
    · exact writeControl_engineLaw v ht
    · exact ht
    · exact ht
    · exact ht
    · exact writePost_engineLaw v ht
    · exact writeAck_engineLaw v ht
    · exact ht
  unfold portAccess
  refine unlessHeld_engineLaw (fun t ht => ?_) ?_
  · split
    · split
      · exact hwrite _ _ t ht
      · exact ht
    · exact ht
  · split <;> exact h

/-! ## A checked record, and what comes before an event -/

theorem executeRecord_engineLaw {run : List Byte → State → State} {s : State} {b : List Byte} (v : Option (Status × Sub))
    (hrun : Steady s (run b s)) (h : EngineLaw s) (ha : adminHolds s = true) : EngineLaw (executeRecord v run b s) := by
  have hbusy := unitsIdle_of_adminHolds ha
  refine finishStep_engineLaw (scheduler_engineLaw.selectOnFree _ ?_)
  split
  · exact h.of_busy hbusy (completeAdmin_steady ..)
  · exact h.of_busy hbusy hrun

theorem settleRecord_engineLaw {s : State} (h : EngineLaw s) : EngineLaw (settleRecord s) := by
  unfold settleRecord
  split
  · next hb => exact executeRecord_engineLaw _ (carryOut_steady ..) h (adminHolds_executing hb)
  · exact h

theorem settleDeferred_engineLaw {s : State} (h : EngineLaw s) : EngineLaw (settleDeferred s) := by
  unfold settleDeferred
  split
  · exact grantAll_engineLaw (scheduler_engineLaw.select h)
  · exact h

theorem lookAgain_engineLaw {s t : State} (h : EngineLaw s) (ht : lookAgain s = some t) : EngineLaw t := by
  unfold lookAgain at ht
  split at ht
  · next hb =>
    split at ht
    · next hu =>
      cases ht
      have hdone := h.of_busy (unitsIdle_of_adminHolds (adminHolds_executing hb)) (applyDisable_steady hu)
      refine finishStep_engineLaw ?_
      split
      · exact scheduler_engineLaw.settleClaim _ hdone
      · exact scheduler_engineLaw.selectOnFree _ hdone
    · cases ht
  · cases ht

theorem settleLook_engineLaw {s : State} (h : EngineLaw s) : EngineLaw (settleLook s) := by
  unfold settleLook
  split
  · cases ht : lookAgain s with
    | none => exact h
    | some t => exact lookAgain_engineLaw h ht
  · exact h

theorem settleDue_engineLaw {s : State} (h : EngineLaw s) : EngineLaw (settleDue s) :=
  settleDeferred_engineLaw (settleLook_engineLaw (settleDeferred_engineLaw (settleRecord_engineLaw h)))

theorem disableApplied_engineLaw {s : State} (h : EngineLaw s) : EngineLaw (disableApplied s) := by
  unfold disableApplied
  split
  · next ht => exact lookAgain_engineLaw h ht
  · exact settleDeferred_engineLaw h

theorem adminRow_engineLaw {mine : Nat → Bool} {run : List Byte → State → State} {s : State} (h : EngineLaw s)
    (hrun : ∀ b, Steady s (run b s)) : EngineLaw (adminRow mine run s) := by
  unfold adminRow
  split
  · next b v hb =>
    split
    · exact executeRecord_engineLaw v (hrun b) h (adminHolds_executing hb)
    · exact settleDue_engineLaw h
  · exact settleDue_engineLaw h

/-! ## The clients' answers -/

theorem entryWritten_engineLaw {s : State} (c : CqId) (h : EngineLaw s) : EngineLaw (entryWritten c s) := by
  unfold entryWritten
  split
  · exact h
  · refine scheduler_engineLaw.claimFreed ?_
    exact h

theorem ringBroken_engineLaw {s : State} (c : CqId) (h : EngineLaw s) : EngineLaw (ringBroken c s) := by
  unfold ringBroken
  split
  · exact h
  · refine scheduler_engineLaw.claimFreed ?_
    exact h

theorem fetchTakes_engineLaw {s : State} (r : Resolution) (h : EngineLaw s) : EngineLaw (fetchTakes r s) := by
  have hfailed (f : Fetch) (hf : s.fetch = some f) (timeout : Bool) : EngineLaw (fetchFailed f timeout s) := by
    unfold fetchFailed
    dsimp only
    split_ifs
    · exact scheduler_engineLaw.claimFreed (h.of_busy (unitsIdle_of_fetch hf) (.of_parts rfl rfl))
    · exact scheduler_engineLaw.claimFreed (h.of_busy (unitsIdle_of_fetch hf) (.of_parts rfl rfl))
    · exact scheduler_engineLaw.selectOnFree _
        (h.of_busy (unitsIdle_of_fetch hf) (.of_parts (place_hostPart ..) (place_moverPart ..)))
  unfold fetchTakes
  split
  · exact h
  · next f hf =>
    split
    · exact scheduler_engineLaw.claimFreed (h.of_busy (unitsIdle_of_fetch hf) (.of_parts rfl rfl))
    · exact hfailed f hf true
    · exact hfailed f hf false

theorem adminRecordTakes_engineLaw {s : State} (r : Resolution) (h : EngineLaw s) : EngineLaw (adminRecordTakes r s) := by
  unfold adminRecordTakes
  split
  · next i n hi =>
    have hbusy : unitsIdle s = false := unitsIdle_of_adminHolds (by simp [adminHolds, hi])
    split
    · exact h.of_busy hbusy ⟨rfl, fun _ => id⟩
    · exact scheduler_engineLaw.selectOnFree _ (h.of_busy hbusy (.of_parts (place_hostPart ..) (place_moverPart ..)))
  · exact h

theorem adminWriteTakes_engineLaw {s : State} (k : Nat) (r : Resolution) (h : EngineLaw s) :
    EngineLaw (adminWriteTakes k r s) := by
  unfold adminWriteTakes
  split
  · next hb =>
    have hbusy := unitsIdle_of_adminHolds (adminHolds_executing hb)
    dsimp only
    split
    · refine scheduler_engineLaw.selectOnFree _ ?_
      split <;> exact h.of_busy hbusy (completeAdmin_steady ..)
    · exact h.of_busy hbusy (.of_parts rfl rfl)
  · exact h

theorem applyWaiting_stack (s : State) : (applyWaiting s).stack = s.stack := by
  unfold applyWaiting applyUpdate
  split
  · dsimp only
    split <;> rfl
  · rfl

theorem segmentBoundary_engineLaw {s : State} {c : Context} (o : Outcome) (h : EngineLaw s) (ha : s.active = some c) :
    EngineLaw (segmentBoundary o s) := by
  have hwaiting : Steady s { applyWaiting s with segment := none } :=
    ⟨congrArg HostPart.steady (applyWaiting_hostPart s), fun _ hs => (applyWaiting_stack s).trans hs⟩
  have ha' : ({ applyWaiting s with segment := none } : State).active = some c := (applyWaiting_active s).trans ha
  have hrule := scheduler_engineLaw.boundaryRule o (h.of_busy (unitsIdle_of_active ha) hwaiting) ha'
  simp only [segmentBoundary, ha]
  split
  · next b hb =>
    have hwaits : (boundaryRule c o { applyWaiting s with segment := none }).admin = .executing b .waitUpdate :=
      (scheduler_waitUpdate b).boundaryRule o ((applyWaiting_admin s).trans (awaitedUpdate_executing hb)) ha'
    exact scheduler_engineLaw.selectOnFree _
      (EngineLaw.of_busy hrule (unitsIdle_of_adminHolds (adminHolds_executing hwaits)) (completeAdmin_steady ..))
  · exact hrule

theorem moverTakes_engineLaw {s : State} (k : Nat) (r : Resolution) (h : EngineLaw s) : EngineLaw (moverTakes k r s) := by
  unfold moverTakes
  split
  · next ha _ =>
    split
    · exact h.of_busy (unitsIdle_of_active ha) ⟨rfl, fun _ => id⟩
    · exact segmentBoundary_engineLaw _ h ha
  · exact h

theorem resolve_engineLaw {s : State} (o : Owner) (r : Resolution) (h : EngineLaw s) : EngineLaw (resolve o r s) := by
  cases o with
  | completion c =>
    cases r with
    | ack => exact entryWritten_engineLaw c h
    | data b => exact entryWritten_engineLaw c h
    | error => exact ringBroken_engineLaw c h
    | timeout => exact ringBroken_engineLaw c h
  | adminRecord => exact adminRecordTakes_engineLaw r h
  | rootRead => exact rootResolved_engineLaw r h
  | adminWrite k => exact adminWriteTakes_engineLaw k r h
  | fetch => exact fetchTakes_engineLaw r h
  | mover k => exact moverTakes_engineLaw k r h

/-! ## The memory port's events, timers and claims -/

theorem setTag_engineLaw {s : State} (t : TagId) (g : TagState) (h : EngineLaw s) : EngineLaw (s.setTag t g) := h

theorem takeResponse_engineLaw {s : State} (tag : BitVec 8) (r : Result) (h : EngineLaw s) :
    EngineLaw (takeResponse tag r s) := by
  refine unlessHeld_engineLaw (fun t ht => ?_) (settleDue_engineLaw h)
  unfold portTakes
  split
  · dsimp only
    split
    · exact ht
    · refine grantAll_engineLaw ?_
      exact ht
    · exact grantAll_engineLaw (setTag_engineLaw _ _ (finishStep_engineLaw (resolve_engineLaw _ _ ht)))
  · exact ht

theorem takeTimeout_engineLaw {s : State} (t : TagId) (h : EngineLaw s) : EngineLaw (takeTimeout t s) := by
  unfold takeTimeout
  split
  · exact finishStep_engineLaw (resolve_engineLaw _ _ (setTag_engineLaw t .stale h))
  · exact h

theorem expireAge_engineLaw {s : State} (c : CqId) (h : EngineLaw s) : EngineLaw (expireAge c s) := by
  unfold expireAge
  split <;> exact h

/-- A grace timer that runs has found the units idle, and leaves them so when it expires (R164). -/
theorem expireGrace_engineLaw {s : State} (h : EngineLaw s) : EngineLaw (expireGrace s) := by
  unfold expireGrace
  split
  · next ms hg =>
    obtain ⟨he, hidle⟩ : s.engine = .stopping ∧ unitsIdle s = true := by
      obtain ⟨-, -, -, -, -, hgrace, -⟩ := h
      exact hgrace (by simp [hg])
    obtain ⟨-, hroot, hstack, -⟩ := h.stopping he
    exact finishStep_engineLaw ((engineLaw_iff _).mpr (.inr (.inr ⟨he, hroot, hstack, fun _ => hidle⟩)))
  · exact h

theorem takeUp_engineLaw {s : State} (h : EngineLaw s) : EngineLaw (takeUp s) := by
  unfold takeUp
  split
  · next hc =>
    exact grantAll_engineLaw (scheduler_engineLaw.settleClaim _ (h.of_running ((canTakeUp_iff s).mp hc).1 rfl))
  · exact settleDeferred_engineLaw h

theorem running_of_fetchCandidate {s : State} {q : WqId} (h : fetchCandidate s q = true) : s.engine = .running := by
  simp only [fetchCandidate, Bool.and_eq_true, beq_iff_eq, and_assoc] at h
  exact h.1

theorem fetchIssue_engineLaw {s : State} (h : EngineLaw s) : EngineLaw (fetchIssue s) := by
  unfold fetchIssue
  split
  · next q hq =>
    have he := running_of_fetchCandidate (fetchCandidate_of_claim hq)
    exact grantAll_engineLaw (scheduler_engineLaw.settleClaim _ (h.of_running he rfl))
  · exact settleDeferred_engineLaw h

/-! ## Every event -/

theorem exec_engineLaw {i : Instr} {s t : State} (hs : EngineLaw s) (h : exec i s = .next t) : EngineLaw t := by
  have hdue := settleDue_engineLaw hs
  have hrecord := settleRecord_engineLaw hs
  have hlook := settleLook_engineLaw hrecord
  have hcontrol (v : Reg) := unlessHeld_engineLaw (fun _ => writeControl_engineLaw v) hdue
  have hpost (v : Reg) := unlessHeld_engineLaw (fun _ => writePost_engineLaw v) hdue
  cases i <;> cases h
  case powerOnReset => exact reset_engineLaw
  case softReset v => exact hcontrol v
  case runWritten1 v => exact hcontrol v
  case runWritten0 v => exact hcontrol v
  case notifyEnable v => exact hcontrol v
  case flagsClear v => exact unlessHeld_engineLaw (f := writeFlags v) (fun _ ht => ht) hdue
  case registerWrite => exact portAccess_engineLaw _ hdue
  case misusedAccess => exact portAccess_engineLaw _ hdue
  case postWork v => exact hpost v
  case postAdmin v => exact hpost v
  case cqAck v => exact unlessHeld_engineLaw (fun _ => writeAck_engineLaw v) hdue
  case unknownOpcode => exact adminRow_engineLaw hs fun b => markRecord_steady b s
  case setEngine => exact adminRow_engineLaw hs fun b => setEngine_steady b s
  case configureQueue => exact adminRow_engineLaw hs fun b => configureQueue_steady b s
  case enableQueue => exact adminRow_engineLaw hs fun b => enableQueue_steady b s
  case disableQueue => exact adminRow_engineLaw hs fun b => disableQueue_steady b s
  case disableQueueApplied => exact disableApplied_engineLaw hrecord
  case abortQueue => exact adminRow_engineLaw hs fun b => abortQueue_steady b s
  case resumeQueue => exact adminRow_engineLaw hs fun b => resumeQueue_steady b s
  case configureCq => exact adminRow_engineLaw hs fun b => configureCq_steady b s
  case loadAperture => exact adminRow_engineLaw hs fun b => handUpdate_steady _ b s
  case clearAperture => exact adminRow_engineLaw hs fun b => handUpdate_steady _ b s
  case readStatistics => exact adminRow_engineLaw hs fun b => readStatistics_steady b s
  case queryQueue => exact adminRow_engineLaw hs fun b => queryQueue_steady b s
  case mark => exact adminRow_engineLaw hs fun b => markRecord_steady b s
  case takeUp => exact takeUp_engineLaw hlook
  case fetchIssue => exact fetchIssue_engineLaw hlook
  case dataOrAckResponse => exact takeResponse_engineLaw _ _ hs
  case errorResponse => exact takeResponse_engineLaw _ _ hs
  case requestTimeout tag => exact takeTimeout_engineLaw tag hdue
  case lateResponse => exact takeResponse_engineLaw _ _ hs
  case strayResponse => exact takeResponse_engineLaw _ _ hs
  case ageTimerExpiry c => exact expireAge_engineLaw c hdue
  case stopGraceExpiry => exact expireGrace_engineLaw hdue

/-- Settles O57: the law is one control state for each engine state (`engineLaw_iff`); a unit at work leaves it alone
(`EngineLaw.of_busy`), and only the start, the stop and CONTROL pass from one to another. -/
theorem everyStepKeepsTheEngineLaw : Obligations.EveryStepKeepsTheEngineLaw := by
  intro s t hs h
  unfold step at h
  split at h
  · cases h
    exact settleDue_engineLaw hs
  · next c rest _ =>
    have hrest : EngineLaw { s with pending := rest } := hs
    exact exec_engineLaw hrest h

end Sys2Proof.Machine
end

section
/-! PROOF. The registers CONTROL, FLAGS, ROOT_LO, ROOT_HI, ID and STATUS, and misuse (R155 to R158, R162, R169, R170, R178,
R179): the statements RunWrittenOneStartsAStoppedEngine, RunWrittenZeroOutsideRunning, NotifyEnableIsWritten, FlagsWriteClearsWhereOne,
RootRegistersHoldWhatIsWritten and MisusedAccessOnlySetsItsFlag. -/

namespace Sys2Proof.Machine

/-! ## An access that finds the machine ready -/

theorem exec_misusedAccess {s : State} (hd : NothingDue s) (a : Access) : exec (.misusedAccess a) s = .next (portAccess a s) := by
  show Host.Outcome.next (portAccess a (settleDue s)) = _
  rw [settleDue_of_nothingDue hd]

theorem exec_registerWrite_of_nothingDue {s : State} (hd : NothingDue s) (offset : Nat) (v : Reg) :
    exec (.registerWrite offset v) s = .next (portAccess ⟨true, 4, offset, v⟩ s) := by
  show Host.Outcome.next (portAccess ⟨true, 4, offset, v⟩ (settleDue s)) = _
  rw [settleDue_of_nothingDue hd]

section
variable {s : State} (h : Ready s) (v : Reg)
include h

theorem unlessHeld_ready (f : State → State) : unlessHeld f (settleDue s) = f s := by
  rw [settleDue_of_nothingDue h.2, unlessHeld_high _ h.1]

theorem exec_softReset : exec (.softReset v) s = .next (writeControl v s) := congrArg _ (unlessHeld_ready h _)
theorem exec_runWritten1 : exec (.runWritten1 v) s = .next (writeControl v s) := congrArg _ (unlessHeld_ready h _)
theorem exec_runWritten0 : exec (.runWritten0 v) s = .next (writeControl v s) := congrArg _ (unlessHeld_ready h _)
theorem exec_notifyEnable : exec (.notifyEnable v) s = .next (writeControl v s) := congrArg _ (unlessHeld_ready h _)
theorem exec_flagsClear : exec (.flagsClear v) s = .next (writeFlags v s) := congrArg _ (unlessHeld_ready h _)

theorem exec_registerWrite {offset : Nat} (h4 : offset % 4 = 0) (hlt : offset < 32) :
    exec (.registerWrite offset v) s = .next (portWrite offset v s) := by
  have hwell : wellFormedAccess ⟨true, 4, offset, v⟩ = true := by simp [wellFormedAccess, h4, hlt]
  rw [exec_registerWrite_of_nothingDue h.2]
  simp only [portAccess, if_true, unlessHeld_high _ h.1, hwell]

end

/-- While RESET_N is high, a well-formed read answers its register's value (R178). -/
theorem readRegister_high {s : State} (h : s.heldEvents = 0) {offset : Nat} (h4 : offset % 4 = 0) (hlt : offset < 32) :
    readRegister s ⟨false, 4, offset, 0⟩ = registerValue s offset := by
  have hwell : wellFormedAccess ⟨false, 4, offset, 0⟩ = true := by simp [wellFormedAccess, h4, hlt]
  rw [readRegister, if_neg (by simp [h]), if_pos hwell]

/-! ## CONTROL (R155, R156) -/

section
variable {v : Reg} {s : State}

theorem writeControl_reset (h2 : v.getLsbD 2 = true) : writeControl v s = softReset s := if_pos h2

theorem writeControl_same (h2 : v.getLsbD 2 = false) (h0 : v.getLsbD 0 = s.run) :
    writeControl v s = { s with notifyEnable := v.getLsbD 1 } := by
  simp only [writeControl, h2, h0, Bool.false_eq_true, if_false, if_true]

theorem writeControl_run1 (h2 : v.getLsbD 2 = false) (h0 : v.getLsbD 0 = true) (hr : s.run = false) :
    writeControl v s = runTo1 { s with run := true, notifyEnable := v.getLsbD 1 } := by
  simp only [writeControl, h2, h0, hr, Bool.false_eq_true, Bool.true_eq_false, if_false, if_true]

theorem writeControl_run0 (h2 : v.getLsbD 2 = false) (h0 : v.getLsbD 0 = false) (hr : s.run = true) :
    writeControl v s = runTo0 { s with run := false, notifyEnable := v.getLsbD 1 } := by
  simp only [writeControl, h2, h0, hr, Bool.false_eq_true, if_false]

/-- CONTROL reads RUN in bit 0, NOTIFY_ENABLE in bit 1 and 0 elsewhere (R155, R179). -/
theorem controlWord_eq (h0 : s.run = v.getLsbD 0) (h1 : s.notifyEnable = v.getLsbD 1) : controlWord s = v &&& 3#32 := by
  apply BitVec.eq_of_toNat_eq
  have hlow : (v &&& 3#32).toNat = v.toNat % 4 := Nat.and_two_pow_sub_one_eq_mod v.toNat 2
  have hbit (k : Nat) : (v.getLsbD k).toNat = v.toNat / 2 ^ k % 2 := Nat.toNat_testBit v.toNat k
  have hb0 := hbit 0
  have hb1 := hbit 1
  rw [hlow, controlWord, h0, h1, BitVec.toNat_ofNat]
  omega

theorem runTo1_stopped (he : s.engine = .stopped) : runTo1 s = grantAll (enterStarting s) := by simp only [runTo1, he]

theorem runTo1_starts (he : s.engine = .stopped)
    (h : (s.rootHi ++ s.rootLo).toNat % 64 = 0 ∧ (s.rootHi ++ s.rootLo).toNat < 2 ^ 48) :
    runTo1 s =
      grantAll { s with engine := .starting, cause := .none, rootInUse := s.rootHi ++ s.rootLo, rootRead := .waiting } := by
  rw [runTo1_stopped he, enterStarting_eq, if_pos h]

theorem runTo1_fails (he : s.engine = .stopped)
    (h : (s.rootHi ++ s.rootLo).toNat % 64 ≠ 0 ∨ 2 ^ 48 ≤ (s.rootHi ++ s.rootLo).toNat) :
    runTo1 s = grantAll { s with engine := .failed, cause := .rootInvalid, rootInUse := s.rootHi ++ s.rootLo } := by
  rw [runTo1_stopped he, enterStarting_eq, if_neg (by omega)]

theorem runTo1_recorded (h : s.engine = .starting ∨ s.engine = .stopping ∨ s.engine = .failed) : runTo1 s = s := by
  rcases h with h | h | h <;> simp only [runTo1, h]

theorem runTo0_failed (h : s.engine = .failed) : runTo0 s = { s with engine := .stopped } := by simp only [runTo0, h]

theorem runTo0_withdrawn (h : s.engine = .starting) (hr : s.rootRead = .waiting) :
    runTo0 s = { s with engine := .stopped, cause := .none, rootRead := .none } := by simp only [runTo0, h, hr, if_true]

theorem runTo0_recorded (h : (s.engine = .starting ∧ s.rootRead = .issued) ∨ s.engine = .stopping) : runTo0 s = s := by
  rcases h with ⟨h, hr⟩ | h
  · simp only [runTo0, h, hr, reduceCtorEq, if_false]
  · simp only [runTo0, h]

end

/-- Settles O5: a STOPPED engine starts or fails as `runTo1_starts` and `runTo1_fails` say, any other
records the write (`runTo1_recorded`). -/
theorem runWrittenOneStartsAStoppedEngine : Obligations.RunWrittenOneStartsAStoppedEngine := by
  intro v s hready h0 h2 hrun
  have hexec := exec_runWritten1 hready v
  rw [writeControl_run1 h2 h0 hrun] at hexec
  refine ⟨fun he halign hlt => ⟨_, hexec, ?_⟩, fun he hbad => ⟨_, hexec, ?_⟩, fun he => ?_⟩
  · exact runTo1_starts he ⟨halign, hlt⟩
  · exact runTo1_fails he hbad
  · exact hexec.trans (congrArg _ (runTo1_recorded he))

/-- Settles O7: each row of R156 for RUN written 0 outside RUNNING. -/
theorem runWrittenZeroOutsideRunning : Obligations.RunWrittenZeroOutsideRunning := by
  intro v s hready h0 h2 hrun
  rw [exec_runWritten0 hready, writeControl_run0 h2 h0 hrun]
  refine ⟨fun he => ?_, fun he hr => ?_, fun he hr => ?_, fun he => ?_⟩
  · exact congrArg _ (runTo0_failed he)
  · exact congrArg _ (runTo0_withdrawn he hr)
  · exact congrArg _ (runTo0_recorded (.inl ⟨he, hr⟩))
  · exact congrArg _ (runTo0_recorded (.inr he))

/-- Settles O8: the write by `writeControl_same`, the read by `controlWord_eq`. -/
theorem notifyEnableIsWritten : Obligations.NotifyEnableIsWritten := by
  intro v s hready h2 h0
  refine ⟨_, exec_notifyEnable hready v, writeControl_same h2 h0, ?_⟩
  rw [writeControl_same h2 h0, readRegister_high (by exact hready.1) (by decide) (by decide)]
  exact controlWord_eq h0.symm rfl

/-! ## FLAGS (R169, R178) -/

theorem flagsWord_toNat (f : StickyFlags) :
    (flagsWord f).toNat = f.postReject.toNat + 2 * f.ackReject.toNat + 4 * f.stray.toNat + 8 * f.badAccess.toNat
    ∧ f.postReject.toNat < 2 ∧ f.ackReject.toNat < 2 ∧ f.stray.toNat < 2 ∧ f.badAccess.toNat < 2 := by
  have hp := Bool.toNat_lt f.postReject
  have ha := Bool.toNat_lt f.ackReject
  have hs := Bool.toNat_lt f.stray
  have hb := Bool.toNat_lt f.badAccess
  refine ⟨?_, hp, ha, hs, hb⟩
  rw [flagsWord, BitVec.toNat_ofNat, Nat.mod_eq_of_lt (by omega)]

/-- The flag that FLAGS shows in a bit (R178). -/
def StickyFlags.shown (f : StickyFlags) : Nat → Bool
  | 0 => f.postReject
  | 1 => f.ackReject
  | 2 => f.stray
  | 3 => f.badAccess
  | _ => false

theorem flagsWord_bit (f : StickyFlags) (k : Nat) : (flagsWord f).getLsbD k = f.shown k := by
  obtain ⟨h, hbounds⟩ := flagsWord_toNat f
  match k with
  | 0 => exact getLsbD_of_mod (show _ = f.postReject.toNat by omega)
  | 1 => exact getLsbD_of_mod (show _ = f.ackReject.toNat by omega)
  | 2 => exact getLsbD_of_mod (show _ = f.stray.toNat by omega)
  | 3 => exact getLsbD_of_mod (show _ = f.badAccess.toNat by omega)
  | k + 4 =>
    have hlt : (flagsWord f).toNat < 2 ^ (k + 4) :=
      Nat.lt_of_lt_of_le (show _ < 2 ^ 4 by omega) (Nat.pow_le_pow_right (by decide) (by omega))
    exact getLsbD_of_mod (b := false) (by simp [Nat.div_eq_of_lt hlt])

theorem clearFlags_shown (v : Reg) (f : StickyFlags) (k : Nat) : (clearFlags v f).shown k = (f.shown k && !v.getLsbD k) := by
  match k with
  | 0 | 1 | 2 | 3 => rfl
  | k + 4 => rfl

/-- Exactly the flags whose position is written 1 are cleared (R169). -/
theorem flagsWord_clearFlags (v : Reg) (f : StickyFlags) : flagsWord (clearFlags v f) = flagsWord f &&& ~~~v := by
  apply BitVec.eq_of_getLsbD_eq
  intro k hk
  rw [flagsWord_bit, clearFlags_shown, BitVec.getLsbD_and, flagsWord_bit, BitVec.getLsbD_not, decide_eq_true hk, Bool.true_and]

theorem readRegister_flags {s : State} (h : s.heldEvents = 0) : readRegister s ⟨false, 4, 0x0C, 0⟩ = flagsWord s.flags :=
  readRegister_high h (by decide) (by decide)

/-- Settles O10: each bit of FLAGS is its flag (`flagsWord_bit`), and a write clears them bit by bit (`flagsWord_clearFlags`). -/
theorem flagsWriteClearsWhereOne : Obligations.FlagsWriteClearsWhereOne := by
  refine ⟨fun v s hready => ⟨_, exec_flagsClear hready v, rfl, ?_⟩, fun s hheld => ?_⟩
  · rw [readRegister_flags hready.1, readRegister_flags (by exact hready.1)]
    exact flagsWord_clearFlags v s.flags
  · rw [readRegister_flags hheld]
    refine ⟨flagsWord_bit _ 0, flagsWord_bit _ 1, flagsWord_bit _ 2, flagsWord_bit _ 3, fun k hk => ?_⟩
    obtain ⟨j, rfl⟩ := Nat.exists_eq_add_of_le' hk
    exact flagsWord_bit _ (j + 4)

/-! ## The other registers, and misuse (R157, R170) -/

/-- Settles O11: the row of each offset of R178, written and read. -/
theorem rootRegistersHoldWhatIsWritten : Obligations.RootRegistersHoldWhatIsWritten := by
  intro v s hready
  have hwrite {offset : Nat} := exec_registerWrite hready v (offset := offset)
  have hread {offset : Nat} := readRegister_high hready.1 (offset := offset)
  refine ⟨⟨hwrite rfl (by decide), ?_⟩, ⟨hwrite rfl (by decide), ?_⟩, hwrite rfl (by decide), hwrite rfl (by decide),
    hread rfl (by decide), hread rfl (by decide), hread rfl (by decide)⟩
  · exact readRegister_high (s := { s with rootLo := v }) hready.1 rfl (by decide)
  · exact readRegister_high (s := { s with rootHi := v }) hready.1 rfl (by decide)

theorem wellFormedAccess_eq_false {a : Access} (h : a.bytes ≠ 4 ∨ a.offset % 4 ≠ 0 ∨ 32 ≤ a.offset) :
    wellFormedAccess a = false := by
  rw [Bool.eq_false_iff]
  intro hw
  simp only [wellFormedAccess, Bool.and_eq_true, beq_iff_eq, decide_eq_true_eq] at hw
  omega

/-- Settles O12: an access that is not well formed reads 0 and writes nothing (R170). -/
theorem misusedAccessOnlySetsItsFlag : Obligations.MisusedAccessOnlySetsItsFlag := by
  intro a s hready hbad
  have hmisused := wellFormedAccess_eq_false hbad
  have hread : readRegister s a = 0 := by simp [readRegister, hmisused]
  rw [exec_misusedAccess hready.2]
  refine ⟨fun hw => ?_, fun hr => ?_⟩
  · simp only [portAccess, hw, if_true, unlessHeld_high _ hready.1, hmisused, Bool.false_eq_true, if_false]
  · have hheld : ({ s with readData := 0 } : State).heldEvents = 0 := hready.1
    simp only [portAccess, hr, hread, unlessHeld_high _ hheld, hmisused, Bool.false_eq_true, if_false]

end Sys2Proof.Machine
end

section
/-! PROOF. Both resets, the time while RESET_N is low, and the laws at power-on (R104, R166, R167, R180): the statements
PowerOnResetLeavesPowerOnValues, SoftResetKeepsTheTagPoolAndTheRootRegisters and ResetMeetsEveryLaw. -/

namespace Sys2Proof.Machine

/-! ## What no due step touches -/

/-- The waiting commands, RESET_N and the count of power-on resets. -/
def State.outside (s : State) : List Instr × Nat × Nat := (s.pending, s.heldEvents, s.resetTurn)

theorem Steady.outside {s t : State} (k : Steady s t) : t.outside = s.outside :=
  congrArg (fun p : SteadyPart => (p.pending, p.heldEvents, p.resetTurn)) k.control

theorem grantAll_outside (s : State) : (grantAll s).outside = s.outside := by
  obtain ⟨hp, -, -, -, -, -, -, -, -, -, -, -, -, -, -, -, -, -, -, -, -, -, -, hh, ht, -⟩ := (grantAll_onlyIssues s).fields
  simp only [State.outside, hp, hh, ht]

theorem reachStopped_outside (s : State) : (reachStopped s).outside = s.outside := by
  rw [reachStopped_eq]
  split_ifs <;> rfl

theorem stopProgress_outside (s : State) : (stopProgress s).outside = s.outside := by
  rcases stopProgress_cases s with h | ⟨-, -, h⟩ | ⟨-, -, h | h⟩ <;> rw [h]
  · rfl
  · exact reachStopped_outside s
  · exact reachStopped_outside (dropOccupied s)

theorem finishStep_outside (s : State) : (finishStep s).outside = s.outside :=
  (grantAll_outside _).trans (stopProgress_outside s)

theorem settleRecord_outside (s : State) : (settleRecord s).outside = s.outside := by
  unfold settleRecord
  split
  · refine (finishStep_outside _).trans ((selectOnFree_steady ..).outside.trans ?_)
    split
    · exact (completeAdmin_steady ..).outside
    · exact (carryOut_steady ..).outside
  · rfl

theorem settleDeferred_outside (s : State) : (settleDeferred s).outside = s.outside := by
  unfold settleDeferred
  split
  · exact (grantAll_outside _).trans (select_steady s).outside
  · rfl

theorem settleClaim_outside (a s : State) : (settleClaim a s).outside = s.outside := by
  unfold settleClaim
  split
  · exact (claimFreed_steady _).outside
  · rfl

theorem lookAgain_outside {s t : State} (h : lookAgain s = some t) : t.outside = s.outside := by
  unfold lookAgain at h
  split at h
  · split at h
    · next hu =>
      cases h
      refine (finishStep_outside _).trans (Eq.trans ?_ (applyDisable_steady hu).outside)
      split
      · exact settleClaim_outside ..
      · exact (selectOnFree_steady ..).outside
    · cases h
  · cases h

theorem settleLook_outside (s : State) : (settleLook s).outside = s.outside := by
  unfold settleLook
  split
  · cases h : lookAgain s with
    | none => rfl
    | some t => exact lookAgain_outside h
  · rfl

theorem settleDue_outside (s : State) : (settleDue s).outside = s.outside :=
  (settleDeferred_outside _).trans ((settleLook_outside _).trans ((settleDeferred_outside _).trans (settleRecord_outside s)))

theorem settleDue_pending (s : State) : (settleDue s).pending = s.pending := congrArg (fun p => p.1) (settleDue_outside s)
theorem settleDue_resetTurn (s : State) : (settleDue s).resetTurn = s.resetTurn := congrArg (fun p => p.2.2) (settleDue_outside s)

/-! ## POWER_ON_RESET (R105, R167) -/

section
variable (s : State)

theorem powerOnReset_tag (g : TagId) : (powerOnReset s).tag g = .free := Vector.getElem_replicate ..
theorem powerOnReset_queue (q : WqId) : (powerOnReset s).queue q = Queue.reset := Vector.getElem_replicate ..
theorem powerOnReset_ring (c : CqId) : (powerOnReset s).ring c = Ring.reset := Vector.getElem_replicate ..
theorem powerOnReset_aperture (a : ApId) : (powerOnReset s).aperture a = Aperture.reset := Vector.getElem_replicate ..

theorem powerOnReset_notifyAsserted : notifyAsserted (powerOnReset s) = false := by
  have henable : (powerOnReset s).notifyEnable = false := rfl
  simp [notifyAsserted, henable]

end

/-! ## While RESET_N is low (R180) -/

section
variable {s : State} {n : Nat} (h : s.heldEvents = n + 1)
include h

theorem notifyAsserted_low : notifyAsserted s = false := by simp [notifyAsserted, h]

theorem readRegister_low (a : Access) : readRegister s a = 0 := by simp [readRegister, h]

theorem portAccess_write_low {a : Access} (hw : a.isWrite = true) : portAccess a s = { s with heldEvents := n } := by
  simp only [portAccess, hw, if_true, unlessHeld_low _ h]

theorem portAccess_read_low {a : Access} (hr : a.isWrite = false) :
    portAccess a s = { s with heldEvents := n, readData := 0 } := by
  have hheld : ({ s with readData := 0 } : State).heldEvents = n + 1 := h
  simp only [portAccess, hr, readRegister_low h a, Bool.false_eq_true, if_false, unlessHeld_low _ hheld]

theorem unlessHeld_due_low (hd : NothingDue s) (f : State → State) : unlessHeld f (settleDue s) = { s with heldEvents := n } := by
  rw [settleDue_of_nothingDue hd, unlessHeld_low _ h]

end

/-- Settles O3: the reset's values are those of `State.reset`, in the queue of commands that what was due has left
(`settleDue_outside`); while RESET_N is low every access and response is counted and not taken (`unlessHeld_due_low`). -/
theorem powerOnResetLeavesPowerOnValues : Obligations.PowerOnResetLeavesPowerOnValues := by
  refine ⟨fun s => ?_, fun n s hheld hd => ?_⟩
  · refine ⟨powerOnReset (settleDue s), rfl, settleDue_pending s, rfl, rfl, rfl, rfl, rfl, rfl, rfl, rfl, rfl, rfl, rfl, rfl, rfl,
      powerOnReset_tag _, fun q => ?_, rfl, rfl, rfl, rfl, rfl, rfl, fun a => ?_, rfl, rfl, rfl, fun c => ?_, rfl, rfl, rfl,
      powerOnReset_notifyAsserted _, ?_, ?_⟩
    · rw [powerOnReset_queue]
      decide
    · rw [powerOnReset_aperture]
      rfl
    · rw [powerOnReset_ring]
      decide
    · exact congrArg Config.eventsWhileLow (settleDue_resetTurn s)
    · exact congrArg (· + 1) (settleDue_resetTurn s)
  · have hlow (f : State → State) := unlessHeld_due_low hheld hd f
    refine ⟨notifyAsserted_low hheld, readRegister_low hheld, fun a hr => ?_, fun a hw => ?_, ?_⟩
    · rw [exec_misusedAccess hd, portAccess_read_low hheld hr]
    · rw [exec_misusedAccess hd, portAccess_write_low hheld hw]
    · rintro i (⟨v, rfl | rfl | rfl | rfl | rfl | ⟨offset, rfl⟩ | rfl | rfl | rfl⟩ | ⟨v, r, ⟨a, rfl⟩ | rfl | rfl | rfl⟩)
      case inl.inr.inr.inr.inr.inr.inl => rw [exec_registerWrite_of_nothingDue hd, portAccess_write_low hheld rfl]
      all_goals exact congrArg Host.Outcome.next (hlow _)

/-! ## SOFT_RESET (R104, R166) -/

theorem softReset_tag (s : State) (g : TagId) : (softReset s).tag g = staleTag (s.tag g) := Vector.getElem_ofFn ..

/-- Settles O4: each tag as `staleTag` says, and all else by the reset's own record of values, with RESET_N high as it was. -/
theorem softResetKeepsTheTagPoolAndTheRootRegisters : Obligations.SoftResetKeepsTheTagPoolAndTheRootRegisters := by
  intro v s hready h2
  have hexec := exec_softReset hready v
  rw [writeControl_reset h2] at hexec
  refine ⟨softReset s, hexec, fun g => ?_, rfl, rfl, ?_, rfl, rfl, rfl, rfl, rfl⟩
  · rw [softReset_tag]
    cases s.tag g <;> rfl
  · simp only [softReset, hready.1]
    rfl

/-! ## The laws at power-on -/

/-- Settles O54: with nothing running, reserved or configured, each law is a closed fact of the reset values. -/
theorem resetMeetsEveryLaw : Obligations.ResetMeetsEveryLaw := by
  have hpending : PendingListLaw State.reset := (pendingListLaw_iff _).mpr reset_balanced
  have hdue : DueLaw State.reset := ⟨nofun, nofun, fun h => absurd rfl h⟩
  exact ⟨by decide, by decide, hpending, by decide, by decide, by decide, by decide, by decide, by decide, reset_engineLaw,
    by decide, by decide, by decide, hdue⟩

end Sys2Proof.Machine
end

section
/-! PROOF. The root block's checks and the resolution of its read (R159 to R161): the statement RootReadDecidesTheStart. -/

namespace Sys2Proof.Machine

/-! ## The root block's checks (R160, R176) -/

theorem leNat_eq_zero_iff (l : List Byte) : leNat l = 0 ↔ allZero l = true := by
  induction l with
  | nil => simp [leNat, allZero]
  | cons x xs ih =>
    have hx : x.toNat = 0 ↔ x = 0 := BitVec.toNat_inj (y := 0)
    have hcons : allZero (x :: xs) = (x == 0 && allZero xs) := rfl
    rw [hcons, Bool.and_eq_true, beq_iff_eq, ← ih, ← hx, leNat]
    omega

theorem allZero_slice_iff (b : List Byte) (off n : Nat) : allZero (slice b off n) = true ↔ field b off n = 0 :=
  (leNat_eq_zero_iff _).symm

/-- A power of two between two powers of two, of which the higher is at most 4096. -/
theorem powerOfTwoIn_pow_iff {i j : Nat} (n : Nat) (hj : j ≤ 12) :
    powerOfTwoIn (2 ^ i) (2 ^ j) n = true ↔ ∃ k, i ≤ k ∧ k ≤ j ∧ n = 2 ^ k := by
  have hle (k l : Nat) : 2 ^ k ≤ 2 ^ l ↔ k ≤ l := Nat.pow_le_pow_iff_right (by decide)
  simp only [powerOfTwoIn, Bool.and_eq_true, decide_eq_true_eq, List.any_eq_true, beq_iff_eq, List.mem_range]
  constructor
  · rintro ⟨⟨hlo, hhi⟩, k, -, rfl⟩
    exact ⟨k, (hle ..).mp hlo, (hle ..).mp hhi, rfl⟩
  · rintro ⟨k, hlo, hhi, rfl⟩
    exact ⟨⟨(hle ..).mpr hlo, (hle ..).mpr hhi⟩, k, by omega, rfl⟩

theorem rootBlockOk_iff (b : List Byte) :
    rootBlockOk b = true ↔
      field b 10 6 = 0 ∧ field b 32 32 = 0
      ∧ (∃ k, 3 ≤ k ∧ k ≤ 8 ∧ field b 8 2 = 2 ^ k) ∧ field b 0 8 % 4096 = 0 ∧ field b 0 8 + 64 * field b 8 2 ≤ 2 ^ 48
      ∧ (∃ k, 4 ≤ k ∧ k ≤ 12 ∧ field b 24 2 = 2 ^ k) ∧ field b 16 8 % 4096 = 0
      ∧ field b 16 8 + 32 * field b 24 2 ≤ 2 ^ 48
      ∧ 1 ≤ field b 26 2 ∧ field b 26 2 ≤ 255 ∧ field b 28 4 ≤ 65535 := by
  have hadmin : powerOfTwoIn 8 256 (field b 8 2) = true ↔ _ := powerOfTwoIn_pow_iff (i := 3) (j := 8) _ (by decide)
  have hcq : powerOfTwoIn 16 4096 (field b 24 2) = true ↔ _ := powerOfTwoIn_pow_iff (i := 4) (j := 12) _ (by decide)
  rw [← hadmin, ← hcq]
  simp only [rootBlockOk, Bool.and_eq_true, decide_eq_true_eq, allZero_slice_iff, ringPlaceOk_iff, and_assoc]
  rfl

/-! ## The resolution of the root read (R159 to R161) -/

section
variable {s : State} (hi : s.rootRead = .issued)
include hi

theorem rootResolved_data_stops (b : List Byte) (hr : s.run = false) :
    rootResolved (.data b) s = { s with rootRead := .none, engine := .stopped, cause := .none } := by
  simp only [rootResolved, hi, hr, if_true, Bool.false_eq_true, if_false]

theorem rootResolved_failure_stops {r : Resolution} (hf : r = .error ∨ r = .timeout) (hr : s.run = false) :
    rootResolved r s = { s with rootRead := .none, engine := .stopped, cause := .rootRead } := by
  rcases hf with rfl | rfl <;> simp only [rootResolved, hi, hr, if_true, Bool.false_eq_true, if_false]

theorem rootResolved_failure_fails {r : Resolution} (hf : r = .error ∨ r = .timeout) (hr : s.run = true) :
    rootResolved r s = { s with rootRead := .none, engine := .failed, cause := .rootRead } := by
  rcases hf with rfl | rfl <;> simp only [rootResolved, hi, hr, if_true]

theorem rootResolved_data_fails {b : List Byte} (hr : s.run = true) (hb : rootBlockOk b = false) :
    rootResolved (.data b) s = { s with rootRead := .none, engine := .failed, cause := .rootInvalid } := by
  simp only [rootResolved, hi, hr, hb, if_true, Bool.false_eq_true, if_false]

theorem rootResolved_data_starts {b : List Byte} (hr : s.run = true) (hb : rootBlockOk b = true) :
    rootResolved (.data b) s = select (enterRunning b { s with rootRead := .none }) := by
  simp only [rootResolved, hi, hr, hb, if_true]

end

theorem handed_rootRead (tg : TagId) (r : Resolution) (s : State) : (handed tg r s).rootRead = s.rootRead := by cases r <;> rfl
theorem handed_run (tg : TagId) (r : Resolution) (s : State) : (handed tg r s).run = s.run := by cases r <;> rfl

theorem takenAs_failure {r : Resolution} (kind : ReqKind) (n : Nat) (h : r = .error ∨ r = .timeout) : takenAs kind n r = r := by
  rcases h with rfl | rfl <;> simp

/-- Settles O40: engine control is handed the resolution (`exec_answerOf`), and what it does is one lemma for each row of R159
and R160; the block's checks are `rootBlockOk_iff`. -/
theorem rootReadDecidesTheStart : Obligations.RootReadDecidesTheStart := by
  intro tg r ad n tm s hready htag hissued
  obtain ⟨t, hexec, hends⟩ := exec_answerOf r hready htag
  have hi : (handed tg r s).rootRead = .issued := (handed_rootRead tg r s).trans hissued
  have hrun := handed_run tg r s
  rw [resolve] at hends
  refine ⟨fun h0 hcase => ⟨t, hexec, ?_⟩, fun h1 hfail => ⟨t, hexec, ?_⟩, fun b h1 hr hlen => ?_⟩
  · rcases hcase with ⟨b, rfl⟩ | hfail
    · rw [if_neg (by simp)]
      rwa [takenAs, resolutionOf, rootResolved_data_stops hi _ (hrun.trans h0)] at hends
    · rw [if_pos hfail]
      rwa [takenAs_failure _ _ hfail, rootResolved_failure_stops hi hfail (hrun.trans h0)] at hends
  · rwa [takenAs_failure _ _ hfail, rootResolved_failure_fails hi hfail (hrun.trans h1)] at hends
  · subst hr hlen
    rw [takenAs_data_self] at hends
    intro good
    have hgood : rootBlockOk b = true ↔ good := rootBlockOk_iff b
    refine ⟨fun hbad => ⟨t, hexec, ?_⟩, fun hok => ⟨t, hexec, ?_⟩⟩
    · rwa [rootResolved_data_fails hi (hrun.trans h1) (Bool.eq_false_iff.mpr (mt hgood.mp hbad))] at hends
    · rwa [rootResolved_data_starts hi (hrun.trans h1) (hgood.mpr hok)] at hends

end Sys2Proof.Machine
end

section
/-! PROOF. The step's frame: the front command is executed with the queue's rest, and no command touches the queue: the statements
StepRunsTheFrontCommand and EveryCommandAnswersAndKeepsTheQueue. -/

namespace Sys2Proof.Machine

/-! ## One step (logs 2, 5, 6, 20) -/

theorem step_of_cons {c : Instr} {s : State} {rest : List Instr} (h : s.pending = c :: rest) :
    step s = exec c { s with pending := rest } := by
  simp only [step, h]

theorem step_of_empty {s : State} (h : s.pending = []) : step s = .next (settleDue s) := by
  simp only [step, h]

/-- Settles O1: the step's two cases, and with nothing due the settling before an event is the identity
(`settleDue_of_nothingDue`). -/
theorem stepRunsTheFrontCommand : Obligations.StepRunsTheFrontCommand := by
  refine ⟨fun c s rest h => step_of_cons h, fun s h => step_of_empty h, fun s h hd => ?_⟩
  rw [step_of_empty h, settleDue_of_nothingDue hd]

/-! ## Shared operations that leave the queue of commands alone -/

theorem Steady.pending {s t : State} (k : Steady s t) : t.pending = s.pending := congrArg SteadyPart.pending k.control

theorem pending_of_outside {s t : State} (h : t.outside = s.outside) : t.pending = s.pending := congrArg Prod.fst h

theorem grantAll_pending (s : State) : (grantAll s).pending = s.pending := pending_of_outside (grantAll_outside s)

theorem finishStep_pending (s : State) : (finishStep s).pending = s.pending := pending_of_outside (finishStep_outside s)

theorem settleRecord_pending (s : State) : (settleRecord s).pending = s.pending := pending_of_outside (settleRecord_outside s)

theorem settleDeferred_pending (s : State) : (settleDeferred s).pending = s.pending :=
  pending_of_outside (settleDeferred_outside s)

theorem settleClaim_pending (a s : State) : (settleClaim a s).pending = s.pending := pending_of_outside (settleClaim_outside a s)

theorem settleBeforeClaim_pending (s : State) : (settleLook (settleRecord s)).pending = s.pending :=
  (pending_of_outside (settleLook_outside _)).trans (settleRecord_pending s)

/-- While RESET_N is low an access or response is only counted off (R180). -/
theorem unlessHeld_pending {f : State → State} (hf : ∀ s, (f s).pending = s.pending) (s : State) :
    (unlessHeld f s).pending = s.pending := by
  unfold unlessHeld
  split
  · exact hf s
  · rfl

/-! ## The register port -/

theorem enterStarting_pending (s : State) : (enterStarting s).pending = s.pending := by
  unfold enterStarting
  dsimp only
  split <;> rfl

theorem enterStopping_pending (s : State) : (enterStopping s).pending = s.pending :=
  (enterStopping_steady s).pending.trans (congrArg HostPart.pending (stackStopped_hostPart s))

theorem runTo1_pending (s : State) : (runTo1 s).pending = s.pending := by
  unfold runTo1
  split
  · exact (grantAll_pending _).trans (enterStarting_pending s)
  · rfl

theorem runTo0_pending (s : State) : (runTo0 s).pending = s.pending := by
  unfold runTo0
  split
  · exact (finishStep_pending _).trans (enterStopping_pending s)
  · split <;> rfl
  · rfl
  · rfl

/-- A write of CONTROL, a soft reset included (log 17). -/
theorem writeControl_pending (v : Reg) (s : State) : (writeControl v s).pending = s.pending := by
  unfold writeControl
  split
  · rfl
  · dsimp only
    split_ifs
    · rfl
    · exact runTo1_pending _
    · exact runTo0_pending _

theorem writePost_pending (v : Reg) (s : State) : (writePost v s).pending = s.pending := by
  unfold writePost
  split
  · rfl
  · split
    · unfold postToAdmin
      dsimp only
      split <;> rfl
    · unfold postToQueue
      dsimp only
      split <;> rfl

theorem writeAck_pending (v : Reg) (s : State) : (writeAck v s).pending = s.pending := by
  unfold writeAck
  dsimp only
  split
  · rfl
  · split
    · exact grantAll_pending _
    · rfl

theorem portWrite_pending (offset : Nat) (v : Reg) (s : State) : (portWrite offset v s).pending = s.pending := by
  unfold portWrite
  split_ifs
  · exact writeControl_pending v s
  · rfl
  · rfl
  · rfl
  · exact writePost_pending v s
  · exact writeAck_pending v s
  · rfl

theorem portAccess_pending (a : Access) (s : State) : (portAccess a s).pending = s.pending := by
  unfold portAccess
  refine (unlessHeld_pending (fun t => ?_) _).trans ?_
  · split_ifs
    · exact portWrite_pending a.offset a.value t
    · rfl
    · rfl
  · split <;> rfl

/-! ## The admin rows -/

theorem executeRecord_pending {run : List Byte → State → State} {b : List Byte} {s : State} (v : Option (Status × Sub))
    (hrun : Steady s (run b s)) : (executeRecord v run b s).pending = s.pending := by
  refine (finishStep_pending _).trans ((selectOnFree_steady ..).pending.trans ?_)
  split
  · exact (completeAdmin_steady ..).pending
  · exact hrun.pending

theorem adminRow_pending {mine : Nat → Bool} {run : List Byte → State → State} {s : State}
    (hrun : ∀ b, Steady s (run b s)) : (adminRow mine run s).pending = s.pending := by
  unfold adminRow
  split
  · next b v _ =>
    split
    · exact executeRecord_pending v (hrun b)
    · exact settleDue_pending s
  · exact settleDue_pending s

theorem disableApplied_pending (s : State) : (disableApplied s).pending = s.pending := by
  unfold disableApplied
  split
  · next ht => exact pending_of_outside (lookAgain_outside ht)
  · exact settleDeferred_pending s

/-! ## The owners' answers, the memory port, the timers and the claims -/

theorem adminRecordTakes_pending (r : Resolution) (s : State) : (adminRecordTakes r s).pending = s.pending := by
  unfold adminRecordTakes
  split
  · split
    · rfl
    · exact (selectOnFree_steady ..).pending.trans (congrArg HostPart.pending (place_hostPart ..))
  · rfl

theorem rootResolved_pending (r : Resolution) (s : State) : (rootResolved r s).pending = s.pending := by
  unfold rootResolved
  split
  · dsimp only
    split
    · split_ifs
      · exact (select_steady _).pending
      · rfl
      · rfl
    · split <;> rfl
  · rfl

/-- Whichever client owns the request that resolves. -/
theorem resolve_pending (o : Owner) (r : Resolution) (s : State) : (resolve o r s).pending = s.pending := by
  cases o with
  | completion c =>
    cases r with
    | ack => exact congrArg HostPart.pending (entryWritten_hostPart c s)
    | data b => exact congrArg HostPart.pending (entryWritten_hostPart c s)
    | error => exact congrArg HostPart.pending (ringBroken_hostPart c s)
    | timeout => exact congrArg HostPart.pending (ringBroken_hostPart c s)
  | adminRecord => exact adminRecordTakes_pending r s
  | rootRead => exact rootResolved_pending r s
  | adminWrite k => exact congrArg HostPart.pending (adminWriteTakes_hostPart k r s)
  | fetch => exact congrArg HostPart.pending (fetchTakes_hostPart r s)
  | mover k => exact congrArg HostPart.pending (moverTakes_hostPart k r s)

theorem portTakes_pending (tag : BitVec 8) (r : Result) (s : State) : (portTakes tag r s).pending = s.pending := by
  unfold portTakes
  split
  · dsimp only
    split
    · rfl
    · exact grantAll_pending _
    · exact (grantAll_pending _).trans ((finishStep_pending _).trans (resolve_pending ..))
  · rfl

theorem takeResponse_pending (tag : BitVec 8) (r : Result) (s : State) : (takeResponse tag r s).pending = s.pending :=
  (unlessHeld_pending (portTakes_pending tag r) _).trans (settleDue_pending s)

theorem takeTimeout_pending (t : TagId) (s : State) : (takeTimeout t s).pending = s.pending := by
  unfold takeTimeout
  split
  · exact (finishStep_pending _).trans (resolve_pending ..)
  · rfl

theorem expireAge_pending (c : CqId) (s : State) : (expireAge c s).pending = s.pending := by
  unfold expireAge
  split <;> rfl

theorem expireGrace_pending (s : State) : (expireGrace s).pending = s.pending := by
  unfold expireGrace
  split
  · exact finishStep_pending _
  · rfl

theorem takeUp_pending (s : State) : (takeUp s).pending = s.pending := by
  unfold takeUp
  split
  · exact (grantAll_pending _).trans (settleClaim_pending ..)
  · exact settleDeferred_pending s

theorem fetchIssue_pending (s : State) : (fetchIssue s).pending = s.pending := by
  unfold fetchIssue
  split
  · exact (grantAll_pending _).trans (settleClaim_pending ..)
  · exact settleDeferred_pending s

/-! ## Every command -/

/-- Settles O2: each arm of the dispatch is a `next`, and its effect, made after what was due (`settleDue_pending`), leaves the
queue of commands alone. -/
theorem everyCommandAnswersAndKeepsTheQueue : Obligations.EveryCommandAnswersAndKeepsTheQueue := by
  intro c s
  have afterDue {t : State} (h : t.pending = (settleDue s).pending) : t.pending = s.pending := h.trans (settleDue_pending s)
  have written {f : State → State} (hf : ∀ u, (f u).pending = u.pending) := afterDue (unlessHeld_pending hf (settleDue s))
  cases c <;> refine ⟨_, rfl, ?_⟩
  case powerOnReset => exact settleDue_pending s
  case softReset v => exact written (writeControl_pending v)
  case runWritten1 v => exact written (writeControl_pending v)
  case runWritten0 v => exact written (writeControl_pending v)
  case notifyEnable v => exact written (writeControl_pending v)
  case flagsClear v => exact written (f := writeFlags v) fun _ => rfl
  case registerWrite => exact afterDue (portAccess_pending ..)
  case misusedAccess => exact afterDue (portAccess_pending ..)
  case postWork v => exact written (writePost_pending v)
  case postAdmin v => exact written (writePost_pending v)
  case cqAck v => exact written (writeAck_pending v)
  case unknownOpcode => exact adminRow_pending fun b => markRecord_steady b s
  case setEngine => exact adminRow_pending fun b => setEngine_steady b s
  case configureQueue => exact adminRow_pending fun b => configureQueue_steady b s
  case enableQueue => exact adminRow_pending fun b => enableQueue_steady b s
  case disableQueue => exact adminRow_pending fun b => disableQueue_steady b s
  case disableQueueApplied => exact (disableApplied_pending _).trans (settleRecord_pending s)
  case abortQueue => exact adminRow_pending fun b => abortQueue_steady b s
  case resumeQueue => exact adminRow_pending fun b => resumeQueue_steady b s
  case configureCq => exact adminRow_pending fun b => configureCq_steady b s
  case loadAperture => exact adminRow_pending fun b => handUpdate_steady _ b s
  case clearAperture => exact adminRow_pending fun b => handUpdate_steady _ b s
  case readStatistics => exact adminRow_pending fun b => readStatistics_steady b s
  case queryQueue => exact adminRow_pending fun b => queryQueue_steady b s
  case mark => exact adminRow_pending fun b => markRecord_steady b s
  case takeUp => exact (takeUp_pending _).trans (settleBeforeClaim_pending s)
  case fetchIssue => exact (fetchIssue_pending _).trans (settleBeforeClaim_pending s)
  case dataOrAckResponse => exact takeResponse_pending ..
  case errorResponse => exact takeResponse_pending ..
  case requestTimeout tag => exact afterDue (takeTimeout_pending tag _)
  case lateResponse => exact takeResponse_pending ..
  case strayResponse => exact takeResponse_pending ..
  case ageTimerExpiry ring => exact afterDue (expireAge_pending ring _)
  case stopGraceExpiry => exact afterDue (expireGrace_pending _)

end Sys2Proof.Machine
end

section
/-! PROOF. Selection turn by turn: it has nothing left to start or resume before its fuel runs out (R30 to R32, R36, R39): the
statement SelectionStartsOrResumes. -/

namespace Sys2Proof.Machine

/-! ## What an end leaves of a deferred claim -/

/-- The scheduler's deferred claim and its count of contests (log 6). -/
def State.claims (s : State) : Bool × Nat := (s.claimDeferred, s.claimTurn)

theorem place_claims (h : Holder) (c : CqId) (e : Entry) (x n : Bool) (s : State) : (place h c e x n s).claims = s.claims := by
  rcases place_cases h c e x n s with ⟨_, hp⟩ | ⟨_, _, hp⟩ | ⟨_, _, hp⟩ <;> rw [hp] <;> rfl

theorem emptySlot_claims (q : WqId) (s : State) : (emptySlot q s).claims = s.claims := by
  rcases emptySlot_cases q s with ⟨_, h⟩ | ⟨_, h⟩ | ⟨_, _, h⟩ | ⟨_, _, h⟩ <;> rw [h] <;> rfl

theorem completeAdmin_claims (b : List Byte) (st : Status) (sub : Sub) (d : Nat) (s : State) :
    (completeAdmin b st sub d s).claims = s.claims := place_claims _ _ _ _ _ s

theorem finishAbort_claims (b : List Byte) (q : WqId) (sub : Sub) (s : State) : (finishAbort b q sub s).claims = s.claims :=
  (completeAdmin_claims _ _ _ _ _).trans (emptySlot_claims q s)

theorem endContext_claims (c : Context) (st : Status) (sub : Sub) (p d : Nat) (byAbort : Bool) (s : State) :
    (endContext c st sub p d byAbort s).claims = s.claims := by
  unfold endContext
  extract_lets q n entry suppressed s1 s2 s3
  have h2 : s2.claims = s.claims := place_claims _ _ _ _ _ s
  have h3 : s3.claims = s.claims := by
    show (if q.drain = true then placeNotice c.queue n s2 else s2).claims = s.claims
    split
    · exact (place_claims _ _ _ _ _ s2).trans h2
    · exact h2
  split
  · exact (emptySlot_claims _ s3).trans h3
  · exact h3

theorem endActive_claims (st : Status) (sub : Sub) (p d : Nat) (s : State) : (endActive st sub p d s).claims = s.claims := by
  unfold endActive
  split
  · rfl
  · dsimp only
    split
    · exact (finishAbort_claims _ _ _ _).trans (endContext_claims _ _ _ _ _ _ _)
    · exact endContext_claims _ _ _ _ _ _ _

theorem makeActive_claims (q : WqId) (s : State) : (makeActive q s).claims = s.claims := by
  unfold makeActive
  dsimp only
  split <;> rfl

theorem beginSegment_claims (s : State) : (beginSegment s).1.claims = s.claims := by
  unfold beginSegment
  split
  · rfl
  · split
    · rfl
    · exact endActive_claims _ _ _ _ s

theorem startRecord_claims (q : WqId) (s : State) : (startRecord q s).1.claims = s.claims := by
  have hmade := makeActive_claims q s
  unfold startRecord
  dsimp only
  split
  · exact hmade
  · split
    · exact (endActive_claims _ _ _ _ _).trans hmade
    · exact (endActive_claims _ _ _ _ _).trans hmade
    · exact (beginSegment_claims _).trans hmade

theorem resumeContext_claims (c : Context) (rest : List Context) (s : State) : (resumeContext c rest s).1.claims = s.claims :=
  beginSegment_claims _

theorem selectLoop_claims (n : Nat) (s : State) : (selectLoop n s).claims = s.claims := by
  induction n generalizing s with
  | zero => rfl
  | succ n ih =>
    unfold selectLoop
    split
    · split
      · dsimp only
        split
        · exact (ih _).trans (startRecord_claims _ s)
        · exact startRecord_claims _ s
      · dsimp only
        split
        · exact (ih _).trans (resumeContext_claims _ _ s)
        · exact resumeContext_claims _ _ s
      · rfl
    · rfl

/-- Selection makes a deferred claim (R31; log 6). -/
theorem select_claimDeferred (s : State) : (select s).claimDeferred = false :=
  congrArg Prod.fst (selectLoop_claims _ { s with claimDeferred := false })

/-! ## FULL slots are only emptied (R59) -/

/-- The staging slot holds a record. -/
def Slot.isFull : Slot → Bool
  | .full _ => true
  | _ => false

/-- The queues whose staging slot is FULL. -/
def fullSlots (s : State) : Finset WqId := Finset.univ.filter fun q => (s.queue q).slot.isFull = true

theorem mem_fullSlots {s : State} {q : WqId} : q ∈ fullSlots s ↔ (s.queue q).slot.isFull = true := by simp [fullSlots]

theorem fullSlots_of_queues {s t : State} (h : t.queues = s.queues) : fullSlots t = fullSlots s := by
  have hq (q : WqId) : t.queue q = s.queue q := by simp only [State.queue, h]
  simp only [fullSlots, hq]

theorem fullSlots_setQueue {s : State} {q : WqId} {d : Queue} (h : d.slot.isFull = true → (s.queue q).slot.isFull = true) :
    fullSlots (s.setQueue q d) ⊆ fullSlots s := fun p hp => by
  rw [mem_fullSlots, State.setQueue_queue] at hp
  rw [mem_fullSlots]
  split at hp
  · next e => exact e ▸ h hp
  · exact hp

theorem emptySlot_fullSlots (q : WqId) (s : State) : fullSlots (emptySlot q s) ⊆ fullSlots s := by
  rcases emptySlot_cases q s with ⟨_, h⟩ | ⟨_, h⟩ | ⟨_, _, h⟩ | ⟨_, _, h⟩ <;> rw [h]
  all_goals exact fullSlots_setQueue (s := s) nofun

theorem endContext_fullSlots (c : Context) (st : Status) (sub : Sub) (p d : Nat) (byAbort : Bool) (s : State) :
    fullSlots (endContext c st sub p d byAbort s) ⊆ fullSlots s := by
  unfold endContext
  extract_lets q n entry suppressed s1 s2 s3
  have h1 : fullSlots s1 = fullSlots s := fullSlots_of_queues (place_queues _ _ _ _ _ s)
  have h2 : fullSlots s2 ⊆ fullSlots s := h1 ▸ fullSlots_setQueue fun h => by simpa [s1, q, endQueue] using h
  have h3 : fullSlots s3 ⊆ fullSlots s := by
    show fullSlots (if q.drain = true then placeNotice c.queue n s2 else s2) ⊆ fullSlots s
    split
    · exact (fullSlots_of_queues (place_queues _ _ _ _ _ s2)).subset.trans h2
    · exact h2
  split
  · exact (emptySlot_fullSlots _ s3).trans h3
  · exact h3

theorem finishAbort_fullSlots (b : List Byte) (q : WqId) (sub : Sub) (s : State) :
    fullSlots (finishAbort b q sub s) ⊆ fullSlots s := by
  unfold finishAbort
  extract_lets s1 d
  have hset : fullSlots (s1.setQueue q { d with
      head := d.tail, discarded := bumpBy d.discarded d.posted, state := .disabled, haltCause := .none }) ⊆ fullSlots s1 :=
    fullSlots_setQueue id
  exact (fullSlots_of_queues (place_queues _ _ _ _ _ _)).subset.trans (hset.trans (emptySlot_fullSlots q s))

theorem endActive_fullSlots (st : Status) (sub : Sub) (p d : Nat) (s : State) :
    fullSlots (endActive st sub p d s) ⊆ fullSlots s := by
  unfold endActive
  split
  · exact Finset.Subset.refl _
  · next c _ =>
    have hend : fullSlots (endContext c st sub p d (s.queue c.queue).abortPending { s with active := none, currentLevel := 0 })
        ⊆ fullSlots s := endContext_fullSlots c st sub p d _ { s with active := none, currentLevel := 0 }
    dsimp only
    split
    · exact (finishAbort_fullSlots _ _ _ _).trans hend
    · exact hend

/-! ## The turns that are left -/

/-- The records that selection could still start and the contexts that it could still resume. -/
def turnsLeft (s : State) : Nat := (fullSlots s).card + s.stack.length

theorem turnsLeft_le (s : State) : turnsLeft s ≤ 8 + s.stack.length :=
  Nat.add_le_add_right (Finset.card_le_univ _) _

theorem turnsLeft_mono {s t : State} (h : fullSlots t ⊆ fullSlots s) (hs : t.stack = s.stack) : turnsLeft t ≤ turnsLeft s := by
  rw [turnsLeft, turnsLeft, hs]
  exact Nat.add_le_add_right (Finset.card_le_card h) _

theorem endActive_stack (st : Status) (sub : Sub) (p d : Nat) (s : State) : (endActive st sub p d s).stack = s.stack :=
  congrArg (fun m => m.2.1) (endActive_moverPart st sub p d s)

theorem endActive_turnsLeft (st : Status) (sub : Sub) (p d : Nat) (s : State) : turnsLeft (endActive st sub p d s) ≤ turnsLeft s :=
  turnsLeft_mono (endActive_fullSlots st sub p d s) (endActive_stack st sub p d s)

theorem beginSegment_turnsLeft (s : State) : turnsLeft (beginSegment s).1 ≤ turnsLeft s := by
  unfold beginSegment
  split
  · exact Nat.le_refl _
  · split
    · exact Nat.le_refl _
    · exact endActive_turnsLeft _ _ _ _ s

theorem Slot.isFull_iff (l : Slot) : l.isFull = true ↔ ∃ b, l = .full b := by cases l <;> simp [Slot.isFull]

theorem isFull_of_eligible {s : State} {q : WqId} (h : eligible s q = true) : (s.queue q).slot.isFull = true :=
  (Slot.isFull_iff _).mpr ((eligible_iff s q).mp h).2.2

/-- A start makes a context active and empties its FULL slot (R32). -/
theorem makeActive_of_isFull {s : State} {q : WqId} (h : (s.queue q).slot.isFull = true) :
    (makeActive q s).active.isSome = true ∧ (makeActive q s).stack = s.stack ∧ fullSlots (makeActive q s) ⊂ fullSlots s := by
  obtain ⟨b, hb⟩ := (Slot.isFull_iff _).mp h
  let d : Queue := { s.queue q with head := ((s.queue q).head + 1) % (s.queue q).ringSize, slot := .empty, state := .running }
  have hfull : fullSlots (makeActive q s) = fullSlots (s.setQueue q d) :=
    fullSlots_of_queues (by simp only [makeActive, hb]; rfl)
  refine ⟨by simp only [makeActive, hb, Option.isSome_some], by simp only [makeActive, hb]; rfl, ?_⟩
  rw [hfull, Finset.ssubset_iff_of_subset (fullSlots_setQueue fun h => by simp [d, Slot.isFull] at h)]
  exact ⟨q, mem_fullSlots.mpr h, by simp [mem_fullSlots, d, Slot.isFull]⟩

theorem startRecord_turnsLeft {s : State} {q : WqId} (h : (s.queue q).slot.isFull = true) :
    turnsLeft (startRecord q s).1 < turnsLeft s := by
  obtain ⟨-, hstack, hfull⟩ := makeActive_of_isFull h
  have hmade : turnsLeft (makeActive q s) < turnsLeft s := by
    rw [turnsLeft, turnsLeft, hstack]
    exact Nat.add_lt_add_right (Finset.card_lt_card hfull) _
  unfold startRecord
  dsimp only
  split
  · exact hmade
  · split
    · exact Nat.lt_of_le_of_lt (endActive_turnsLeft _ _ _ _ _) hmade
    · exact Nat.lt_of_le_of_lt (endActive_turnsLeft _ _ _ _ _) hmade
    · exact Nat.lt_of_le_of_lt (beginSegment_turnsLeft _) hmade

/-- A resumption takes its context off the stack (R39). -/
theorem resumeContext_turnsLeft {s : State} {c : Context} {rest : List Context} (hs : s.stack = c :: rest) :
    turnsLeft (resumeContext c rest s).1 < turnsLeft s := by
  refine Nat.lt_of_le_of_lt (beginSegment_turnsLeft (resumed c rest s)) ?_
  have hfull : fullSlots (resumed c rest s) ⊆ fullSlots s :=
    fullSlots_setQueue (s := s) (q := c.queue) (d := { s.queue c.queue with state := .running }) id
  have hcard := Finset.card_le_card hfull
  rw [turnsLeft, turnsLeft, hs, List.length_cons]
  show _ + rest.length < _
  omega

/-! ## The fuel of selection -/

/-- Selection's turns do not depend on fuel beyond those that are left. -/
theorem selectLoop_fuel {n m : Nat} {s : State} (hn : turnsLeft s < n) (hm : turnsLeft s < m) :
    selectLoop n s = selectLoop m s := by
  induction n generalizing m s with
  | zero => exact absurd hn (Nat.not_lt_zero _)
  | succ n ih =>
    obtain ⟨m, rfl⟩ : ∃ k, m = k + 1 := ⟨m - 1, by omega⟩
    unfold selectLoop
    split
    · rcases choose_cases s with ⟨q, hq, he⟩ | ⟨c, rest, hc, hs⟩ | hi
      · have hless := startRecord_turnsLeft (isFull_of_eligible he)
        simp only [hq]
        split
        · exact ih (by omega) (by omega)
        · rfl
      · have hless := resumeContext_turnsLeft hs
        simp only [hc]
        split
        · exact ih (by omega) (by omega)
        · rfl
      · simp only [hi]
    · rfl

/-- Selection has fuel for every turn that is left. -/
theorem select_eq_selectLoop {n : Nat} {s : State} (hc : s.claimDeferred = false) (hn : turnsLeft s < n) :
    select s = selectLoop n s := by
  have hs : { s with claimDeferred := false } = s := by rw [← hc]
  rw [select, hs]
  have := turnsLeft_le s
  exact selectLoop_fuel (by omega) hn

/-- Selection that starts a record goes on as the record does (R32, R36). -/
theorem select_of_start {s : State} {q : WqId} (he : s.engine = .running) (ha : s.active = none) (hq : choose s = .start q)
    (hel : eligible s q = true) : select s = selectAfter (startRecord q { s with claimDeferred := false }) := by
  have hless : turnsLeft (startRecord q { s with claimDeferred := false }).1 < turnsLeft s :=
    startRecord_turnsLeft (s := { s with claimDeferred := false }) (isFull_of_eligible hel)
  have hclaim : (startRecord q { s with claimDeferred := false }).1.claimDeferred = false :=
    congrArg Prod.fst (startRecord_claims q { s with claimDeferred := false })
  have hq' : choose { s with claimDeferred := false } = .start q := hq
  have := turnsLeft_le s
  rw [select_eq, selectLoop, if_pos ⟨he, ha⟩, hq', selectAfter]
  dsimp only
  split
  · exact (select_eq_selectLoop hclaim (by omega)).symm
  · rfl

/-- Selection that resumes a context goes on as its record does (R36, R39). -/
theorem select_of_resume {s : State} {c : Context} {rest : List Context} (he : s.engine = .running) (ha : s.active = none)
    (hc : choose s = .resume c rest) (hs : s.stack = c :: rest) :
    select s = selectAfter (resumeContext c rest { s with claimDeferred := false }) := by
  have hless : turnsLeft (resumeContext c rest { s with claimDeferred := false }).1 < turnsLeft s :=
    resumeContext_turnsLeft (s := { s with claimDeferred := false }) hs
  have hclaim : (resumeContext c rest { s with claimDeferred := false }).1.claimDeferred = false :=
    congrArg Prod.fst (resumeContext_claims c rest { s with claimDeferred := false })
  have hc' : choose { s with claimDeferred := false } = .resume c rest := hc
  have := turnsLeft_le s
  rw [select_eq, selectLoop, if_pos ⟨he, ha⟩, hc', selectAfter]
  dsimp only
  split
  · exact (select_eq_selectLoop hclaim (by omega)).symm
  · rfl

/-- Selection with nothing to start and nothing to resume (R30, case 4). -/
theorem select_of_idle {s : State} (he : s.engine = .running) (ha : s.active = none) (hi : choose s = .idle) :
    select s = { s with claimDeferred := false, currentLevel := 0 } := by
  have hi' : choose { s with claimDeferred := false } = .idle := hi
  rw [select_eq, selectLoop, if_pos ⟨he, ha⟩, hi']

/-! ## The statement -/

theorem choose_of_le_cons {s : State} {c : Context} {rest : List Context} (h : eligibleLevel s ≤ topLevel s)
    (hs : s.stack = c :: rest) : choose s = .resume c rest := by
  simp only [choose, if_neg (Nat.not_lt.mpr h), hs]

theorem choose_of_le_nil {s : State} (h : eligibleLevel s ≤ topLevel s) (hs : s.stack = []) : choose s = .idle := by
  simp only [choose, if_neg (Nat.not_lt.mpr h), hs]

theorem topLevel_lt_iff {s : State} {n : Nat} (hn : 0 < n) : topLevel s < n ↔ ∀ x ∈ s.stack.head?, x.level < n := by
  unfold topLevel
  cases s.stack <;> simp [hn]

/-- Settles O50: selection is `select_of_start`, `select_of_resume` or `select_of_idle`, and what its record then does is
`goesOn`. -/
theorem selectionStartsOrResumes : Obligations.SelectionStartsOrResumes := by
  refine ⟨fun q s => ?_, fun s h => ?_, fun s he ha => ⟨?_, ?_⟩⟩
  · rw [eligible_iff]
    tauto
  · rcases h with h | h | ⟨hs, hl, h⟩
    · exact select_of_not_running h
    · exact select_of_active h
    · by_cases hr : s.engine = .running ∧ s.active = none
      · have hle : eligibleLevel s ≤ topLevel s :=
          (eligibleLevel_le_iff s _).mpr (h.imp_right fun h p _ hp => by simp [h p] at hp)
        have hidle : choose s = .idle := choose_of_le_nil hle hs
        rw [select_of_idle hr.1 hr.2 hidle, ← hl]
      · rcases not_and_or.mp hr with h | h
        · exact select_of_not_running h
        · exact select_of_active h
  · intro q c b before after hf hi hb hd hr hl htop ho hnot hmax hbefore x
    have hel : eligible s q = true := (eligible_iff s q).mpr ⟨hi, hd, b, hb⟩
    have hlevel := eligibleLevel_eq hf (by simp [ho]) hel hmax
    have hchoose : choose s = .start q := by
      rw [choose, hlevel, if_pos ((topLevel_lt_iff hl).mpr htop), nearest_eq ho hel hbefore]
    have hmade := makeActive_of_full (s := { s with claimDeferred := false }) hb hr
    have hfilter : s.startOrder.filter (fun p => p ≠ q) = (before ++ after).filter fun p => p ≠ q := by simp [ho]
    rw [select_of_start he ha hchoose hel, selectAfter_startRecord (c := x) (by rw [hmade]; rfl), hmade]
    simp only [← hfilter]
    rfl
  · intro x rest hs h
    have hle : eligibleLevel s ≤ topLevel s := (eligibleLevel_le_iff s _).mpr (by rw [topLevel, hs]; exact h)
    have hchoose : choose s = .resume x rest := choose_of_le_cons hle hs
    rw [select_of_resume he ha hchoose hs]
    exact selectAfter_beginSegment rfl

end Sys2Proof.Machine
end

section
/-! PROOF. The laws of ownership, queue flags, levels and start order over the part of a state that they look at, its standing (R25
to R29, R56): the single changes that keep them. -/

namespace Sys2Proof.Machine

/-! ## The standing of a state -/

/-- What the laws look at in a descriptor. -/
structure QueueStanding where
  state : QueueState
  drain : Bool
  abortPending : Bool
  level : Nat

/-- What the laws look at: the queues, each context as its queue and level, the scheduler, and RESET_N. -/
structure Standing where
  queue : WqId → QueueStanding
  active : Option (WqId × Nat)
  stack : List (WqId × Nat)
  currentLevel : Nat
  startOrder : List WqId
  engine : EngineState
  claimDeferred : Bool
  heldEvents : Nat

def Queue.standing (d : Queue) : QueueStanding :=
  { state := d.state, drain := d.drain, abortPending := d.abortPending, level := d.level }

/-- A context as its queue and level. -/
def Context.seat (c : Context) : WqId × Nat := (c.queue, c.level)

def State.standing (s : State) : Standing :=
  { queue := fun q => (s.queue q).standing, active := s.active.map Context.seat, stack := s.stack.map Context.seat
    currentLevel := s.currentLevel, startOrder := s.startOrder, engine := s.engine, claimDeferred := s.claimDeferred
    heldEvents := s.heldEvents }

/-- The active context and those stacked. -/
def Standing.seats (a : Standing) : List (WqId × Nat) := a.active.toList ++ a.stack

/-- `a` with the standing of one queue replaced. -/
def Standing.setQueue (a : Standing) (q : WqId) (d : QueueStanding) : Standing := { a with queue := Function.update a.queue q d }

/-! ## The laws -/

/-- A queue in this state owns no context (R26). -/
def QueueState.Quiet (st : QueueState) : Prop := st ≠ .running ∧ st ≠ .suspended

/-- R26. -/
structure Standing.Owned (a : Standing) : Prop where
  nodup : (a.seats.map Prod.fst).Nodup
  running : ∀ q, (a.queue q).state = .running ↔ q ∈ a.active.toList.map Prod.fst
  suspended : ∀ q, (a.queue q).state = .suspended ↔ q ∈ a.stack.map Prod.fst

/-- R56. -/
structure Standing.Flagged (a : Standing) : Prop where
  drain : ∀ q, (a.queue q).drain = true → (a.queue q).state = .running ∨ (a.queue q).state = .suspended
  abort : ∀ q, (a.queue q).abortPending = true → (a.queue q).state = .running

/-- R25 and R27, but for the stack's being empty without an active context. -/
structure Standing.Levelled (a : Standing) : Prop where
  idle : a.active = none → a.currentLevel = 0
  current : ∀ x ∈ a.active, a.currentLevel = x.2
  falls : a.seats.Pairwise fun x y => y.2 < x.2
  range : ∀ x ∈ a.seats, 1 ≤ x.2 ∧ x.2 ≤ 7
  levels : ∀ q, (a.queue q).level ≤ 7

/-- In RUNNING the mover is idle only when nothing is stacked (R27, R31). -/
def Standing.Served (a : Standing) : Prop := a.engine = .running → a.active = none → a.stack = []

/-- A claim is deferred only for an idle mover in RUNNING (R31; log 6). -/
def Standing.Deferred (a : Standing) : Prop := a.claimDeferred = true → a.engine = .running ∧ a.active = none

theorem seats_standing (s : State) : s.standing.seats = (contexts s).map Context.seat := by
  simp only [Standing.seats, State.standing, contexts, List.map_append]
  cases s.active <;> rfl

theorem ownershipLaw_iff (s : State) : OwnershipLaw s ↔ s.standing.Owned := by
  have hseats : s.standing.seats.map Prod.fst = (contexts s).map fun c => c.queue := by
    rw [seats_standing, List.map_map]
    rfl
  have hactive : s.standing.active.toList.map Prod.fst = s.active.toList.map fun c => c.queue := by
    simp only [State.standing]
    cases s.active <;> rfl
  have hstack : s.standing.stack.map Prod.fst = s.stack.map fun c => c.queue := List.map_map ..
  rw [OwnershipLaw, ← hseats, ← hactive, ← hstack]
  exact ⟨fun ⟨h1, h2, h3⟩ => ⟨h1, h2, h3⟩, fun ⟨h1, h2, h3⟩ => ⟨h1, h2, h3⟩⟩

theorem queueFlagLaw_iff (s : State) : QueueFlagLaw s ↔ s.standing.Flagged :=
  ⟨fun ⟨h1, h2⟩ => ⟨h1, h2⟩, fun ⟨h1, h2⟩ => ⟨h1, h2⟩⟩

/-- The law of R25 and R27 is that of the levels, with an empty stack whenever the mover is idle. -/
theorem schedulerLaw_iff (s : State) : SchedulerLaw s ↔ s.standing.Levelled ∧ (s.active = none → s.stack = []) := by
  have hidle : s.standing.active = none ↔ s.active = none := Option.map_eq_none_iff
  have hcurrent : (∀ x ∈ s.standing.active, s.standing.currentLevel = x.2) ↔ ∀ c ∈ s.active, s.currentLevel = c.level := by
    simp only [State.standing]
    cases s.active <;> simp [Context.seat]
  have hfalls : (s.standing.seats.Pairwise fun x y => y.2 < x.2) ↔ LevelsFall (contexts s) := by
    rw [seats_standing, List.pairwise_map]
    rfl
  have hrange : (∀ x ∈ s.standing.seats, 1 ≤ x.2 ∧ x.2 ≤ 7) ↔ ∀ c ∈ contexts s, 1 ≤ c.level ∧ c.level ≤ 7 := by
    rw [seats_standing, List.forall_mem_map]
    rfl
  constructor
  · rintro ⟨h1, h2, h3, h4, h5⟩
    exact ⟨⟨fun h => (h1 (hidle.mp h)).2, hcurrent.mpr h2, hfalls.mpr h3, hrange.mpr h4, h5⟩, fun h => (h1 h).1⟩
  · rintro ⟨⟨h1, h2, h3, h4, h5⟩, h6⟩
    exact ⟨fun h => ⟨h6 h, h1 (hidle.mpr h)⟩, hcurrent.mp h2, hfalls.mp h3, hrange.mp h4, h5⟩

/-! ## The relation between the standings before and after -/

/-- `b` breaks none of the laws that `a` meets, whatever becomes of the claims. -/
structure Standing.KeepsOrder (a b : Standing) : Prop where
  owned : a.Owned → b.Owned
  flagged : a.Owned → a.Flagged → b.Flagged
  levelled : a.Levelled → b.Levelled
  startOrder : a.startOrder.Perm allQueues → b.startOrder.Perm allQueues
  heldEvents : a.heldEvents = 0 → b.heldEvents = 0

/-- `b` breaks none of the laws that `a` meets, and selection has been made where it was due. -/
structure Standing.Keeps (a b : Standing) : Prop extends Standing.KeepsOrder a b where
  served : a.Served → b.Served
  deferred : a.Deferred → b.Deferred

namespace Standing

variable {a b c : Standing}

theorem KeepsOrder.refl (a : Standing) : a.KeepsOrder a := ⟨id, fun _ => id, id, id, id⟩

theorem KeepsOrder.trans (h : a.KeepsOrder b) (k : b.KeepsOrder c) : a.KeepsOrder c :=
  ⟨k.owned ∘ h.owned, fun ho hf => k.flagged (h.owned ho) (h.flagged ho hf), k.levelled ∘ h.levelled,
    k.startOrder ∘ h.startOrder, k.heldEvents ∘ h.heldEvents⟩

theorem Keeps.refl (a : Standing) : a.Keeps a := ⟨.refl a, id, id⟩

theorem Keeps.trans (h : a.Keeps b) (k : b.Keeps c) : a.Keeps c :=
  ⟨h.toKeepsOrder.trans k.toKeepsOrder, k.served ∘ h.served, k.deferred ∘ h.deferred⟩

end Standing

/-! ## One queue's change -/

section
variable {a b : Standing} {q : WqId} {d : QueueStanding}

theorem Standing.setQueue_self : (a.setQueue q d).queue q = d := Function.update_self ..

theorem Standing.setQueue_of_ne {p : WqId} (h : p ≠ q) : (a.setQueue q d).queue p = a.queue p := Function.update_of_ne h ..

/-- One queue changes, and only its own contexts with it. -/
theorem Standing.Owned.change (h : a.Owned) (hb : b.queue = (a.setQueue q d).queue) (hn : (b.seats.map Prod.fst).Nodup)
    (hr : d.state = .running ↔ q ∈ b.active.toList.map Prod.fst) (hs : d.state = .suspended ↔ q ∈ b.stack.map Prod.fst)
    (ho : ∀ p, p ≠ q → (p ∈ b.active.toList.map Prod.fst ↔ p ∈ a.active.toList.map Prod.fst)
      ∧ (p ∈ b.stack.map Prod.fst ↔ p ∈ a.stack.map Prod.fst)) : b.Owned := by
  refine ⟨hn, fun p => ?_, fun p => ?_⟩ <;> rw [hb] <;> by_cases hp : p = q
  · rw [hp, setQueue_self, hr]
  · rw [setQueue_of_ne hp, (ho p hp).1, h.running]
  · rw [hp, setQueue_self, hs]
  · rw [setQueue_of_ne hp, (ho p hp).2, h.suspended]

/-- One queue changes, its flags as its state allows. -/
theorem Standing.Flagged.change (h : a.Flagged) (hb : b.queue = (a.setQueue q d).queue)
    (hd : d.drain = true → d.state = .running ∨ d.state = .suspended) (ha : d.abortPending = true → d.state = .running) :
    b.Flagged := by
  refine ⟨fun p => ?_, fun p => ?_⟩ <;> rw [hb] <;> by_cases hp : p = q
  · rwa [hp, setQueue_self]
  · rw [setQueue_of_ne hp]
    exact h.drain p
  · rwa [hp, setQueue_self]
  · rw [setQueue_of_ne hp]
    exact h.abort p

theorem Standing.Levelled.setQueue (h : a.Levelled) (hd : d.level ≤ 7) : (a.setQueue q d).Levelled := by
  refine ⟨h.idle, h.current, h.falls, h.range, fun p => ?_⟩
  by_cases hp : p = q
  · rw [hp, setQueue_self]
    exact hd
  · rw [setQueue_of_ne hp]
    exact h.levels p

/-- A queue without a context goes to a state without one, its flags as they were. -/
theorem Standing.keeps_setQueue (hq : a.Owned → (a.queue q).state.Quiet) (hd : d.state.Quiet)
    (hdrain : d.drain = (a.queue q).drain) (habort : d.abortPending = (a.queue q).abortPending)
    (hlevel : d.level = (a.queue q).level ∨ d.level ≤ 7) : a.Keeps (a.setQueue q d) := by
  refine ⟨⟨fun h => h.change rfl h.nodup ?_ ?_ fun _ _ => ⟨.rfl, .rfl⟩, fun ho h => h.change rfl ?_ ?_,
    fun h => h.setQueue (hlevel.elim (fun hl => hl ▸ h.levels q) id), id, id⟩, id, id⟩
  · exact iff_of_false hd.1 ((not_congr (h.running q)).mp (hq h).1)
  · exact iff_of_false hd.2 ((not_congr (h.suspended q)).mp (hq h).2)
  · exact fun ht => absurd (h.drain q (hdrain ▸ ht)) (not_or.mpr (hq ho))
  · exact fun ht => absurd (h.abort q (habort ▸ ht)) (hq ho).1

/-- A queue keeps its state and level, its flags as that state allows. -/
theorem Standing.keeps_setFlags (hs : d.state = (a.queue q).state) (hl : d.level = (a.queue q).level)
    (hdrain : d.drain = (a.queue q).drain ∨ d.state = .running ∨ d.state = .suspended)
    (habort : a.Owned → d.abortPending = (a.queue q).abortPending ∨ d.state = .running) : a.Keeps (a.setQueue q d) := by
  refine ⟨⟨fun h => h.change rfl h.nodup (hs ▸ h.running q) (hs ▸ h.suspended q) fun _ _ => ⟨.rfl, .rfl⟩,
    fun ho h => h.change rfl ?_ ?_, fun h => h.setQueue (hl ▸ h.levels q), id, id⟩, id, id⟩
  · exact fun ht => hdrain.elim (fun he => hs ▸ h.drain q (he ▸ ht)) id
  · exact fun ht => (habort ho).elim (fun he => hs ▸ h.abort q (he ▸ ht)) id

end

/-! ## Contexts that leave and come (R26, R32, R37, R39) -/

section
variable {a : Standing} {q : WqId} {l : Nat} {d : QueueStanding} {rest : List (WqId × Nat)}

/-- What a queue is when its context has ended: in a state without one, its flags cleared (R33, R34). -/
structure QueueStanding.Ended (d : QueueStanding) (level : Nat) : Prop where
  quiet : d.state.Quiet
  drain : d.drain = false
  abort : d.abortPending = false
  level_eq : d.level = level

/-- The active context ends. -/
def Standing.endActive (a : Standing) (q : WqId) (d : QueueStanding) : Standing :=
  { a.setQueue q d with active := none, currentLevel := 0 }

theorem Standing.endActive_keepsOrder (ha : a.active = some (q, l)) (hd : d.Ended (a.queue q).level) :
    a.KeepsOrder (a.endActive q d) := by
  have hseats : a.seats = (q, l) :: a.stack := by simp [seats, ha]
  have hseats' : (a.endActive q d).seats = a.stack := rfl
  refine ⟨fun h => ?_, fun _ h => h.change rfl (by simp [hd.drain]) (by simp [hd.abort]), fun h => ?_, id, id⟩
  · have hnodup := h.nodup
    rw [hseats, List.map_cons, List.nodup_cons] at hnodup
    refine h.change rfl (hseats' ▸ hnodup.2) (iff_of_false hd.quiet.1 List.not_mem_nil) (iff_of_false hd.quiet.2 hnodup.1)
      fun p hp => ⟨?_, .rfl⟩
    simp [endActive, ha, hp]
  · have hset := h.setQueue (q := q) (d := d) (hd.level_eq ▸ h.levels q)
    refine ⟨fun _ => rfl, nofun, ?_, fun x hx => h.range x ?_, hset.levels⟩
    · exact (List.pairwise_cons.mp (hseats ▸ h.falls)).2
    · exact hseats ▸ List.mem_cons_of_mem _ hx

/-- A stacked context leaves the stack and ends. -/
def Standing.endStacked (a : Standing) (q : WqId) (d : QueueStanding) (rest : List (WqId × Nat)) : Standing :=
  { a.setQueue q d with stack := rest }

theorem Standing.endStacked_keeps (hp : (a.stack.map Prod.fst).Perm (q :: rest.map Prod.fst))
    (hsub : rest.Sublist a.stack) (hd : d.Ended (a.queue q).level) : a.Keeps (a.endStacked q d rest) := by
  have hseats : (a.endStacked q d rest).seats.Sublist a.seats := hsub.append_left _
  refine ⟨⟨fun h => ?_, fun _ h => h.change rfl (by simp [hd.drain]) (by simp [hd.abort]), fun h => ?_, id, id⟩,
    fun h he ha => List.sublist_nil.mp (h he ha ▸ hsub), id⟩
  · have hnodup := h.nodup
    rw [seats, List.map_append, List.nodup_append] at hnodup
    obtain ⟨-, hstack, hdisjoint⟩ := hnodup
    have hnot := (List.nodup_cons.mp (hp.nodup_iff.mp hstack)).1
    refine h.change rfl (h.nodup.sublist (hseats.map _)) (iff_of_false hd.quiet.1 fun hm => ?_) (iff_of_false hd.quiet.2 hnot)
      fun p hpq => ⟨.rfl, ?_⟩
    · exact hdisjoint q hm q (hp.mem_iff.mpr List.mem_cons_self) rfl
    · rw [hp.mem_iff, List.mem_cons]
      exact (or_iff_right hpq).symm
  · have hset := h.setQueue (q := q) (d := d) (hd.level_eq ▸ h.levels q)
    exact ⟨h.idle, h.current, h.falls.sublist hseats, fun x hx => h.range x (hseats.subset hx), hset.levels⟩

/-- A queue RUNNING. -/
def QueueStanding.run (d : QueueStanding) : QueueStanding := { d with state := .running }

/-- An IDLE queue starts its record (R32). -/
def Standing.start (a : Standing) (q : WqId) : Standing :=
  { a.setQueue q (a.queue q).run with
    active := some (q, (a.queue q).level), currentLevel := (a.queue q).level
    startOrder := a.startOrder.filter (fun p => p != q) ++ [q] }

theorem perm_filter_append {l : List WqId} {q : WqId} (h : l.Perm allQueues) :
    (l.filter (fun p => p != q) ++ [q]).Perm allQueues := by
  have hnodup : l.Nodup := h.nodup_iff.mpr (by decide)
  have hmem : q ∈ l := h.mem_iff.mpr (mem_allQueues q)
  have herase : l.filter (fun p => p != q) = l.erase q := (hnodup.erase_eq_filter q).symm
  rw [herase]
  exact (List.perm_append_singleton q _).trans ((List.perm_cons_erase hmem).symm.trans h)

theorem Standing.Owned.start (h : a.Owned) (ha : a.active = none) (hq : (a.queue q).state = .idle) : (a.start q).Owned := by
  have hnot : q ∉ a.stack.map Prod.fst := fun hm => by simp [(h.suspended q).mpr hm] at hq
  have hnodup := h.nodup
  rw [seats, ha] at hnodup
  refine h.change rfl ?_ (iff_of_true rfl (by simp [Standing.start])) (iff_of_false nofun hnot) fun p hp => ⟨?_, .rfl⟩
  · exact List.nodup_cons.mpr ⟨hnot, hnodup⟩
  · simp [Standing.start, ha, hp]

theorem Standing.Flagged.start (h : a.Flagged) : (a.start q).Flagged := h.change rfl (fun _ => .inl rfl) fun _ => rfl

/-- A context comes above all others (R27, R30). -/
theorem Standing.Levelled.enter {b : Standing} (h : a.Levelled) (hb : b.active = some (q, b.currentLevel)) (hs : b.stack = a.seats)
    (hq : ∀ p, (b.queue p).level = (a.queue p).level) (hpos : 0 < b.currentLevel) (hle : b.currentLevel ≤ 7)
    (hless : ∀ x ∈ a.seats, x.2 < b.currentLevel) : b.Levelled := by
  have hseats : b.seats = (q, b.currentLevel) :: a.seats := by simp [seats, hb, hs]
  refine ⟨fun hn => by simp [hb] at hn, fun x hx => ?_, ?_, fun x hx => ?_, fun p => hq p ▸ h.levels p⟩
  · rw [hb, Option.mem_some_iff] at hx
    exact hx ▸ rfl
  · rw [hseats, List.pairwise_cons]
    exact ⟨hless, h.falls⟩
  · rw [hseats, List.mem_cons] at hx
    rcases hx with rfl | hx
    · exact ⟨hpos, hle⟩
    · exact h.range x hx

theorem Standing.setQueue_level (h : d.level = (a.queue q).level) (p : WqId) :
    ((a.setQueue q d).queue p).level = (a.queue p).level := by
  by_cases hp : p = q
  · rw [hp, setQueue_self, h]
  · rw [setQueue_of_ne hp]

/-- An idle mover starts the record of an IDLE queue whose level exceeds those on the stack (R30, R32). -/
theorem Standing.start_keepsOrder (ha : a.active = none) (hq : (a.queue q).state = .idle)
    (hpos : 0 < (a.queue q).level) (hless : a.Levelled → ∀ x ∈ a.stack, x.2 < (a.queue q).level) : a.KeepsOrder (a.start q) := by
  have hseats : a.seats = a.stack := by simp [seats, ha]
  refine ⟨fun h => h.start ha hq, fun _ h => h.start, fun h => ?_, perm_filter_append, id⟩
  exact h.enter (b := a.start q) rfl hseats.symm (setQueue_level (d := (a.queue q).run) rfl) hpos (h.levels q)
    fun x hx => hless h x (hseats ▸ hx)

/-- The active context is pushed (R37). -/
def Standing.push (a : Standing) (q : WqId) (l : Nat) : Standing :=
  { a.setQueue q { a.queue q with state := .suspended } with active := none, stack := (q, l) :: a.stack }

theorem Standing.Owned.push (h : a.Owned) (ha : a.active = some (q, l)) : (a.push q l).Owned := by
  have hseats : a.seats = (a.push q l).seats := by simp [seats, Standing.push, ha]
  refine h.change rfl (hseats ▸ h.nodup) (iff_of_false nofun List.not_mem_nil) (iff_of_true rfl List.mem_cons_self) fun p hp => ?_
  simp [Standing.push, ha, hp]

theorem Standing.Flagged.push (h : a.Flagged) (hp : (a.queue q).abortPending = false) : (a.push q l).Flagged :=
  h.change rfl (fun _ => .inr rfl) fun ht => by simp [hp] at ht

/-- The record of an IDLE queue of a higher level preempts the active context, which no abort awaits (R35, R37). -/
theorem Standing.preempt_keepsOrder {p : WqId} (ha : a.active = some (p, l)) (habort : (a.queue p).abortPending = false)
    (hq : (a.queue q).state = .idle) (hless : a.currentLevel < (a.queue q).level) : a.KeepsOrder ((a.push p l).start q) := by
  have hseats : a.seats = (p, l) :: a.stack := by simp [seats, ha]
  have hlevel : ((a.push p l).start q).currentLevel = (a.queue q).level :=
    setQueue_level (a := a) (q := p) (d := { a.queue p with state := .suspended }) rfl q
  refine ⟨fun h => (h.push ha).start rfl ?_, fun _ h => (h.push habort).start, fun h => ?_, perm_filter_append, id⟩
  · have hne : q ≠ p := fun e => by
      have hrunning : (a.queue p).state = .running := (h.running p).mpr (by simp [ha])
      simp [← e, hq] at hrunning
    show ((a.setQueue p _).queue q).state = _
    rw [setQueue_of_ne hne, hq]
  · have hcurrent : a.currentLevel = l := h.current _ ha
    refine h.enter (b := (a.push p l).start q) rfl hseats.symm (fun r => ?_) (hlevel ▸ Nat.zero_lt_of_lt hless)
      (hlevel ▸ h.levels q) fun x hx => ?_
    · exact (setQueue_level (a := a.push p l) (d := ((a.push p l).queue q).run) rfl r).trans
        (setQueue_level (a := a) (d := { a.queue p with state := .suspended }) rfl r)
    · rw [hlevel]
      rw [hseats, List.mem_cons] at hx
      rcases hx with rfl | hx
      · exact hcurrent ▸ hless
      · exact Nat.lt_trans ((List.pairwise_cons.mp (hseats ▸ h.falls)).1 x hx) (hcurrent ▸ hless)

/-- The top context is resumed (R39). -/
def Standing.resume (a : Standing) (q : WqId) (l : Nat) (rest : List (WqId × Nat)) : Standing :=
  { a.setQueue q (a.queue q).run with active := some (q, l), currentLevel := l, stack := rest }

theorem Standing.resume_keepsOrder (ha : a.active = none) (hs : a.stack = (q, l) :: rest) :
    a.KeepsOrder (a.resume q l rest) := by
  have hseats : a.seats = (a.resume q l rest).seats := by simp [seats, ha, hs, Standing.resume]
  refine ⟨fun h => ?_, fun _ h => h.change rfl (fun _ => .inl rfl) fun _ => rfl, fun h => ?_, id, id⟩
  · have hnodup := h.nodup
    rw [hseats, seats, List.map_append, List.nodup_append] at hnodup
    have hnot : q ∉ rest.map Prod.fst := fun hm => hnodup.2.2 q (by simp [Standing.resume]) q hm rfl
    refine h.change rfl (hseats ▸ h.nodup) (iff_of_true rfl (by simp [Standing.resume])) (iff_of_false nofun hnot) fun p hp => ?_
    simp [Standing.resume, ha, hs, hp]
  · refine ⟨nofun, fun x hx => ?_, hseats ▸ h.falls, hseats ▸ h.range, (h.setQueue (d := (a.queue q).run) (h.levels q)).levels⟩
    rw [show (a.resume q l rest).active = some (q, l) from rfl, Option.mem_some_iff] at hx
    exact hx ▸ rfl

end

end Sys2Proof.Machine
end

section
/-! PROOF. Selection, the claims of a freed entry and the boundary rule keep the laws of a state's standing (R30 to R37, R39, R42,
R46). -/

namespace Sys2Proof.Machine

/-! ## What the shared operations do to the standing -/

theorem Standing.Keeps.of_eq {a b : Standing} (h : b = a) : a.Keeps b := h ▸ .refl a

theorem setQueue_standing (s : State) (q : WqId) (d : Queue) : (s.setQueue q d).standing = s.standing.setQueue q d.standing := by
  have hqueue : (fun p => ((s.setQueue q d).queue p).standing) = Function.update (fun p => (s.queue p).standing) q d.standing := by
    funext p
    by_cases hp : p = q <;> simp [State.setQueue_queue, hp]
  simp only [State.standing, hqueue]
  rfl

/-- A descriptor is replaced in what the laws do not look at. -/
theorem setQueue_standing_same {s : State} {q : WqId} {d : Queue} (h : d.standing = (s.queue q).standing) :
    (s.setQueue q d).standing = s.standing := by
  rw [setQueue_standing, h, Standing.setQueue]
  congr 1
  exact Function.update_eq_self q _

@[simp] theorem place_standing (h : Holder) (c : CqId) (e : Entry) (x n : Bool) (s : State) :
    (place h c e x n s).standing = s.standing := by
  rcases place_cases h c e x n s with ⟨_, hp⟩ | ⟨_, _, hp⟩ | ⟨_, _, hp⟩ <;> rw [hp] <;> rfl

@[simp] theorem emptySlot_standing (q : WqId) (s : State) : (emptySlot q s).standing = s.standing := by
  rcases emptySlot_cases q s with ⟨_, h⟩ | ⟨_, h⟩ | ⟨_, _, h⟩ | ⟨_, _, h⟩ <;> rw [h]
  all_goals exact setQueue_standing_same (s := s) rfl

@[simp] theorem completeAdmin_standing (b : List Byte) (st : Status) (sub : Sub) (d : Nat) (s : State) :
    (completeAdmin b st sub d s).standing = s.standing := place_standing _ _ _ _ _ s

theorem emptySlot_queue_standing (q p : WqId) (s : State) : ((emptySlot q s).queue p).standing = (s.queue p).standing :=
  congrFun (congrArg Standing.queue (emptySlot_standing q s)) p

theorem finishAbort_standing (b : List Byte) (q : WqId) (sub : Sub) (s : State) :
    (finishAbort b q sub s).standing = s.standing.setQueue q { (s.queue q).standing with state := .disabled } := by
  rw [finishAbort, completeAdmin_standing, setQueue_standing, emptySlot_standing, ← emptySlot_queue_standing q q s]
  rfl

theorem Standing.setQueue_setQueue (a : Standing) (q : WqId) (d e : QueueStanding) :
    (a.setQueue q d).setQueue q e = a.setQueue q e := by
  simp only [setQueue, Function.update_idem]

/-! ## Ends (R33, R34) -/

theorem endQueue_ended (d : Queue) (st : Status) (n : NextState) : (endQueue d st n).standing.Ended d.level := by
  refine ⟨?_, rfl, rfl, rfl⟩
  cases n <;> exact ⟨nofun, nofun⟩

/-- A context that has left its place ends: its queue is in a state without one, its flags cleared. -/
theorem endContext_standing (c : Context) (st : Status) (sub : Sub) (p d : Nat) (byAbort : Bool) (s : State) :
    ∃ e : QueueStanding, e.Ended (s.queue c.queue).level
      ∧ (endContext c st sub p d byAbort s).standing = s.standing.setQueue c.queue e := by
  refine ⟨_, endQueue_ended (s.queue c.queue) st (nextState s (s.queue c.queue) st byAbort), ?_⟩
  unfold endContext
  dsimp only
  split <;> split <;> simp [placeNotice, setQueue_standing]

theorem endActive_standing {s : State} {c : Context} (st : Status) (sub : Sub) (p d : Nat) (ha : s.active = some c) :
    ∃ e : QueueStanding, e.Ended (s.queue c.queue).level ∧ (endActive st sub p d s).standing = s.standing.endActive c.queue e := by
  obtain ⟨e, he, hs⟩ := endContext_standing c st sub p d (s.queue c.queue).abortPending { s with active := none, currentLevel := 0 }
  simp only [endActive, ha]
  split
  · refine ⟨{ e with state := .disabled }, ⟨⟨nofun, nofun⟩, he.drain, he.abort, he.level_eq⟩, ?_⟩
    have hqueue := congrFun (congrArg Standing.queue hs) c.queue
    rw [Standing.setQueue_self] at hqueue
    rw [finishAbort_standing, hs, Standing.setQueue_setQueue, ← hqueue]
    rfl
  · exact ⟨e, he, hs⟩

/-- The active context's end, before the selection that follows it. -/
theorem endActive_order (st : Status) (sub : Sub) (p d : Nat) (s : State) :
    s.standing.KeepsOrder (endActive st sub p d s).standing := by
  cases ha : s.active with
  | none =>
    simp only [endActive, ha]
    exact .refl _
  | some c =>
    obtain ⟨e, he, hs⟩ := endActive_standing st sub p d ha
    have hseat : s.standing.active = some (c.queue, c.level) := by simp [State.standing, ha, Context.seat]
    exact hs ▸ Standing.endActive_keepsOrder (a := s.standing) hseat he

/-- A context ends that has left the stack. -/
theorem endContext_keeps_stacked {s : State} {l : List Context} (c : Context) (st : Status) (sub : Sub) (p d : Nat) (byAbort : Bool)
    (hp : (s.stack.map fun x => x.queue).Perm (c.queue :: l.map fun x => x.queue)) (hl : l.Sublist s.stack) :
    s.standing.Keeps (endContext c st sub p d byAbort { s with stack := l }).standing := by
  obtain ⟨e, he, hs⟩ := endContext_standing c st sub p d byAbort { s with stack := l }
  rw [hs]
  refine Standing.endStacked_keeps (a := s.standing) (rest := l.map Context.seat) ?_ (hl.map _) he
  rw [List.map_map]
  exact (List.map_map (l := s.stack) ..).symm ▸ hp

theorem abortStacked_schedule {s : State} {c : Context} (hc : c ∈ s.stack) : s.standing.Keeps (abortStacked c s).standing := by
  obtain ⟨x, l₁, l₂, _, hx, hl, he⟩ := List.exists_of_eraseP (p := fun p : Context => p.queue == c.queue) hc (by simp)
  have hxq : x.queue = c.queue := by simpa using hx
  refine endContext_keeps_stacked c _ _ _ _ _ ?_ List.eraseP_sublist
  rw [he, hl, List.map_append, List.map_append, List.map_cons, hxq]
  exact List.perm_middle

theorem endStackStopped_schedule (l : List Context) {s : State} (hl : s.stack = l) :
    s.standing.Keeps (endStackStopped l s).standing := by
  induction l generalizing s with
  | nil =>
    refine .of_eq ?_
    simp only [endStackStopped, State.standing, hl]
    rfl
  | cons c rest ih =>
    have hend : s.standing.Keeps (endContext c .stopped .none c.done 0 false { s with stack := rest }).standing :=
      endContext_keeps_stacked c _ _ _ _ _ (by rw [hl]; exact .refl _) (by rw [hl]; exact List.sublist_cons_self ..)
    have hstack : (endContext c .stopped .none c.done 0 false { s with stack := rest }).stack = rest :=
      congrArg (fun m => m.2.1) (endContext_moverPart c .stopped .none c.done 0 false { s with stack := rest })
    exact hend.trans (ih hstack)

/-! ## Starts, resumptions and preemptions (R32, R37, R39) -/

theorem makeActive_standing {s : State} {q : WqId} (h : (s.queue q).slot.isFull = true) :
    (makeActive q s).standing = s.standing.start q := by
  obtain ⟨b, hb⟩ := (Slot.isFull_iff _).mp h
  have hset := setQueue_standing s q
    { s.queue q with head := ((s.queue q).head + 1) % (s.queue q).ringSize, slot := .empty, state := .running }
  have hqueue := congrArg Standing.queue hset
  simp only [makeActive, hb]
  simp only [State.standing] at hqueue ⊢
  rw [Standing.start]
  congr 1

theorem resumed_standing (c : Context) (rest : List Context) (s : State) :
    (resumed c rest s).standing = s.standing.resume c.queue c.level (rest.map Context.seat) := by
  have hqueue := congrArg Standing.queue (setQueue_standing s c.queue { s.queue c.queue with state := .running })
  simp only [State.standing] at hqueue
  simp only [resumed, State.standing, Standing.resume]
  congr 1

theorem pushActive_standing (c : Context) (s : State) :
    (pushActive c s).standing = s.standing.push c.queue c.level := by
  have hqueue := congrArg Standing.queue (setQueue_standing s c.queue
    { s.queue c.queue with state := .suspended, timesSuspended := bump (s.queue c.queue).timesSuspended })
  simp only [State.standing] at hqueue
  simp only [pushActive, State.standing, Standing.push]
  congr 1

/-- A queue found at a level has it. -/
theorem level_of_nearest {s : State} {n : Nat} {q : WqId} (h : nearest s n = some q) : (s.queue q).level = n := by
  have := List.find?_some h
  simp only [Bool.and_eq_true, beq_iff_eq] at this
  exact this.2

/-- What selection starts is eligible and above the stack (R28, R30). -/
theorem choose_start {s : State} {q : WqId} (h : choose s = .start q) :
    eligible s q = true ∧ topLevel s < (s.queue q).level := by
  unfold choose at h
  dsimp only at h
  split at h
  · next hlt =>
    split at h
    · next p hp =>
      obtain rfl : p = q := Choice.start.inj h
      exact ⟨eligible_of_nearest hp, level_of_nearest hp ▸ hlt⟩
    · cases h
  · split at h <;> cases h

/-- What preempts is eligible and above the current level (R35 case 6). -/
theorem preemptor_some {s : State} {q : WqId} (h : preemptor s = some q) :
    eligible s q = true ∧ s.currentLevel < (s.queue q).level := by
  refine ⟨eligible_of_preemptor h, ?_⟩
  unfold preemptor at h
  dsimp only at h
  split at h
  · next hlt => exact level_of_nearest h ▸ hlt
  · cases h

/-- An eligible queue stands at the highest eligible level (R30). -/
theorem nearest_ne_none {s : State} (h : 0 < eligibleLevel s) : nearest s (eligibleLevel s) ≠ none := by
  have hhigh : ¬ eligibleLevel s ≤ eligibleLevel s - 1 := by omega
  have hmax := (eligibleLevel_le_iff s _).mp (Nat.le_refl (eligibleLevel s))
  rw [eligibleLevel_le_iff] at hhigh
  push Not at hhigh
  obtain ⟨hf, p, hp, he, hl⟩ := hhigh
  have hle := hmax.resolve_left hf p hp he
  rw [nearest, Ne, List.find?_eq_none]
  intro hnone
  refine hnone p hp ?_
  rw [Bool.and_eq_true, beq_iff_eq]
  exact ⟨he, by omega⟩

/-- Selection idles only with an empty stack (R30). -/
theorem stack_of_choose_idle {s : State} (h : choose s = .idle) : s.stack = [] := by
  unfold choose at h
  dsimp only at h
  split at h
  · next hlt =>
    split at h
    · cases h
    · next hn => exact absurd hn (nearest_ne_none (Nat.zero_lt_of_lt hlt))
  · split at h
    · cases h
    · next hs => exact hs

/-- The levels of the stack fall from its top (R27). -/
theorem Standing.Levelled.stack_le {s : State} (h : s.standing.Levelled) : ∀ x ∈ s.standing.stack, x.2 ≤ topLevel s := by
  have hfalls : (s.stack.map Context.seat).Pairwise fun x y => y.2 < x.2 := (List.pairwise_append.mp h.falls).2.1
  intro x hx
  change x ∈ s.stack.map Context.seat at hx
  unfold topLevel
  cases hs : s.stack with
  | nil => simp [hs] at hx
  | cons c rest =>
    rw [hs, List.map_cons] at hfalls hx
    rcases List.mem_cons.mp hx with rfl | hx
    · exact Nat.le_refl _
    · exact Nat.le_of_lt ((List.pairwise_cons.mp hfalls).1 x hx)

theorem makeActive_order {s : State} {q : WqId} (ha : s.active = none) (hq : choose s = .start q) :
    s.standing.KeepsOrder (makeActive q s).standing := by
  obtain ⟨he, hlt⟩ := choose_start hq
  rw [makeActive_standing (isFull_of_eligible he)]
  exact Standing.start_keepsOrder (a := s.standing) (by simp [State.standing, ha]) ((eligible_iff s q).mp he).1
    (Nat.zero_lt_of_lt hlt) fun h x hx => Nat.lt_of_le_of_lt (h.stack_le x hx) hlt

theorem pushActive_slot (c : Context) (s : State) (q : WqId) : ((pushActive c s).queue q).slot = (s.queue q).slot := by
  show ((s.setQueue c.queue _).queue q).slot = _
  rw [State.setQueue_queue]
  split
  · next e => rw [e]
  · rfl

/-- A preemption, in which the active context's queue awaits no abort (R37). -/
theorem preempt_order {s : State} {c : Context} {q : WqId} (ha : s.active = some c)
    (habort : (s.queue c.queue).abortPending = false) (hq : preemptor s = some q) :
    s.standing.KeepsOrder (makeActive q (pushActive c s)).standing := by
  obtain ⟨he, hlt⟩ := preemptor_some hq
  rw [makeActive_standing (pushActive_slot c s q ▸ isFull_of_eligible he), pushActive_standing]
  exact Standing.preempt_keepsOrder (a := s.standing) (by simp [State.standing, ha, Context.seat]) habort
    ((eligible_iff s q).mp he).1 hlt

theorem resumed_order {s : State} {c : Context} {rest : List Context} (ha : s.active = none) (hs : s.stack = c :: rest) :
    s.standing.KeepsOrder (resumed c rest s).standing := by
  rw [resumed_standing]
  exact Standing.resume_keepsOrder (a := s.standing) (by simp [State.standing, ha]) (by simp [State.standing, hs, Context.seat])

theorem beginSegment_order (s : State) : s.standing.KeepsOrder (beginSegment s).1.standing := by
  unfold beginSegment
  split
  · exact .refl _
  · split
    · exact .refl _
    · exact endActive_order _ _ _ _ s

/-- What becomes of a record whose context has just become active. -/
theorem startRecord_order (q : WqId) (s : State) : (makeActive q s).standing.KeepsOrder (startRecord q s).1.standing := by
  unfold startRecord
  dsimp only
  split
  · exact .refl _
  · split
    · exact endActive_order _ _ _ _ _
    · exact endActive_order _ _ _ _ _
    · exact beginSegment_order _

theorem Standing.KeepsOrder.toIdle {a : Standing} (ha : a.active = none) : a.KeepsOrder { a with currentLevel := 0 } :=
  ⟨fun h => ⟨h.nodup, h.running, h.suspended⟩, fun _ h => ⟨h.drain, h.abort⟩,
    fun h => ⟨fun _ => rfl, fun x hx => by simp [ha] at hx, h.falls, h.range, h.levels⟩, id, id⟩

theorem selectLoop_order (n : Nat) (s : State) : s.standing.KeepsOrder (selectLoop n s).standing := by
  induction n generalizing s with
  | zero => exact .refl _
  | succ n ih =>
    unfold selectLoop
    split
    · next hr =>
      rcases choose_cases s with ⟨q, hq, _⟩ | ⟨c, rest, hc, hs⟩ | hi
      · have hstart := (makeActive_order hr.2 hq).trans (startRecord_order q s)
        rw [hq]
        dsimp only
        split
        · exact hstart.trans (ih _)
        · exact hstart
      · have hresume : s.standing.KeepsOrder (resumeContext c rest s).1.standing :=
          (resumed_order hr.2 hs).trans (beginSegment_order _)
        rw [hc]
        dsimp only
        split
        · exact hresume.trans (ih _)
        · exact hresume
      · rw [hi]
        exact .toIdle (by simp [State.standing, hr.2])
    · exact .refl _

theorem Standing.KeepsOrder.claims (a : Standing) (x : Bool) : a.KeepsOrder { a with claimDeferred := x } :=
  ⟨fun h => ⟨h.nodup, h.running, h.suspended⟩, fun _ h => ⟨h.drain, h.abort⟩,
    fun h => ⟨h.idle, h.current, h.falls, h.range, h.levels⟩, id, id⟩

theorem select_order (s : State) : s.standing.KeepsOrder (select s).standing :=
  (Standing.KeepsOrder.claims s.standing false).trans (selectLoop_order _ { s with claimDeferred := false })

/-! ## Selection leaves the mover idle only with an empty stack (R30, R31) -/

/-- A segment that is formed leaves its context active. -/
theorem beginSegment_active {s : State} (h : (beginSegment s).2 = false) : (beginSegment s).1.active = s.active := by
  unfold beginSegment at h ⊢
  split
  · rfl
  · split
    · rfl
    · next hc _ _ _ _ hl => simp [hc, hl] at h

theorem startRecord_active {s : State} {q : WqId} (h : (startRecord q s).2 = false) :
    (startRecord q s).1.active = (makeActive q s).active := by
  unfold startRecord at h ⊢
  dsimp only at h ⊢
  split
  · rfl
  · next c hc =>
    simp only [hc] at h
    split at h
    · cases h
    · cases h
    · next hgoes => simpa only [hgoes, hc] using beginSegment_active h

theorem served_of_active {s : State} (h : s.active.isSome = true) : s.standing.Served := fun _ hn => by
  have : s.active = none := Option.map_eq_none_iff.mp hn
  simp [this] at h

theorem served_of_stack {s : State} (h : s.stack = []) : s.standing.Served := fun _ _ => by simp [State.standing, h]

/-- A start that does not end its record leaves it active. -/
theorem startRecord_served {s : State} {q : WqId} (hq : (s.queue q).slot.isFull = true) (h : (startRecord q s).2 = false) :
    (startRecord q s).1.standing.Served :=
  served_of_active (by rw [startRecord_active h]; exact (makeActive_of_isFull hq).1)

theorem selectLoop_served {n : Nat} {s : State} (h : turnsLeft s < n) : (selectLoop n s).standing.Served := by
  induction n generalizing s with
  | zero => exact absurd h (Nat.not_lt_zero _)
  | succ n ih =>
    unfold selectLoop
    split
    · rcases choose_cases s with ⟨q, hq, he⟩ | ⟨c, rest, hc, hs⟩ | hi
      · have hfull := isFull_of_eligible he
        have hless := startRecord_turnsLeft hfull
        rw [hq]
        dsimp only
        split
        · exact ih (by omega)
        · next hend => exact startRecord_served hfull (by simpa using hend)
      · have hless := resumeContext_turnsLeft hs
        rw [hc]
        dsimp only
        split
        · exact ih (by omega)
        · next hend =>
          have hgoes : (resumeContext c rest s).2 = false := by simpa using hend
          have hactive : (resumeContext c rest s).1.active = some c := beginSegment_active (s := resumed c rest s) hgoes
          exact served_of_active (by rw [hactive]; rfl)
      · rw [hi]
        exact served_of_stack (stack_of_choose_idle hi)
    · next hr =>
      refine fun he ha => absurd ⟨he, ?_⟩ hr
      exact Option.map_eq_none_iff.mp ha

/-- Selection leaves the mover idle in RUNNING only with an empty stack. -/
theorem select_served (s : State) : (select s).standing.Served := by
  have := turnsLeft_le s
  exact selectLoop_served (s := { s with claimDeferred := false }) (show turnsLeft s < _ by omega)

theorem select_deferred (s : State) : (select s).standing.Deferred := fun h => by
  have : (select s).claimDeferred = true := h
  simp [select_claimDeferred] at this

/-- Selection after an end or a start that broke nothing but what selection mends. -/
theorem select_schedule {a : Standing} {s : State} (h : a.KeepsOrder s.standing) : a.Keeps (select s).standing :=
  ⟨h.trans (select_order s), fun _ => select_served s, fun _ => select_deferred s⟩

/-! ## Claims (R31, R109) -/

theorem claimFreed_schedule (s : State) : s.standing.Keeps (claimFreed s).standing := by
  rcases claimFreed_cases s with h | ⟨hs, _, h | h⟩ <;> rw [h]
  · exact select_schedule (.refl _)
  · exact select_schedule (s := { s with claimTurn := s.claimTurn + 1 }) (.refl _)
  · refine ⟨.claims _ true, id, fun _ _ => ?_⟩
    obtain ⟨⟨he, ha⟩, -⟩ : (s.engine = .running ∧ s.active = none) ∧ _ := by
      simpa only [schedulerClaims, Bool.and_eq_true, beq_iff_eq, Option.isNone_iff_eq_none] using hs
    exact ⟨he, by simp [State.standing, ha]⟩

theorem selectOnFree_schedule (a s : State) : s.standing.Keeps (selectOnFree a s).standing := by
  unfold selectOnFree
  split
  · exact claimFreed_schedule s
  · exact .refl _

theorem selectOnIdle_schedule (a s : State) : s.standing.Keeps (selectOnIdle a s).standing := by
  unfold selectOnIdle
  split
  · exact .refl _
  · exact select_schedule (.refl _)

theorem settleClaim_schedule (a s : State) : s.standing.Keeps (settleClaim a s).standing := by
  have hmade : s.standing.Keeps { s with claimDeferred := false : State }.standing := ⟨.claims _ false, id, fun _ => nofun⟩
  unfold settleClaim
  split
  · exact hmade.trans (claimFreed_schedule _)
  · exact .refl _

/-! ## The boundary of a segment (R35) -/

theorem advanced_standing {s : State} {c : Context} (n : Nat) (ha : s.active = some c) :
    (advanced c n s).standing = s.standing := by
  have hlevel : (advance c n).level = c.level := by unfold advance; split <;> rfl
  have hseat : (advance c n).seat = c.seat := by simp [Context.seat, hlevel]
  simp only [State.standing, advanced, ha, Option.map_some, hseat]
  rfl

/-- With a context no claim is deferred; the end of a step that leaves claims as they are defers none. -/
theorem deferred_of_claims {s t : State} {c : Context} (ha : s.active = some c) (h : t.claims = s.claims) :
    s.standing.Deferred → t.standing.Deferred := fun hd ht => by
  have hs : s.claimDeferred = true := (congrArg Prod.fst h).symm.trans ht
  have := (hd hs).2
  simp [State.standing, ha] at this

theorem selectAfter_schedule {s : State} {c : Context} {r : State × Bool} (ha : s.active = some c)
    (h : s.standing.KeepsOrder r.1.standing) (hserved : r.2 = false → r.1.standing.Served) (hclaims : r.1.claims = s.claims) :
    s.standing.Keeps (selectAfter r).standing := by
  unfold selectAfter
  split
  · exact select_schedule h
  · next hr => exact ⟨h, fun _ => hserved (by simpa using hr), deferred_of_claims ha hclaims⟩

/-- A success at a boundary: the record ends, is preempted or goes on (R35 cases 3 to 7). -/
theorem boundaryRule_success_schedule {c : Context} {s : State} (n : Nat) (ha : s.active = some c) :
    s.standing.Keeps (boundaryRule c (.success n) s).standing := by
  have hactive : (advanced c n s).active = some (advance c n) := rfl
  rw [← advanced_standing n ha, boundaryRule_success, ← endActive_eq_withActiveEnd _ _ _ _ hactive,
    ← endActive_eq_withActiveEnd _ _ _ _ hactive, ← endActive_eq_withActiveEnd _ _ _ _ hactive, ← selectAfter_beginSegment hactive]
  split_ifs with _ habort hstop
  · exact select_schedule (endActive_order _ _ _ _ _)
  · exact select_schedule (endActive_order _ _ _ _ _)
  · refine ⟨endActive_order _ _ _ _ _, fun _ hr => ?_, deferred_of_claims hactive (endActive_claims _ _ _ _ _)⟩
    have he : (endActive .stopped .none (c.done + n) 0 (advanced c n s)).engine = s.engine :=
      congrArg HostPart.engine (endActive_hostPart ..)
    exact absurd (hr.symm.trans (he.trans hstop)) nofun
  · have habort : ((advanced c n s).queue (advance c n).queue).abortPending = false := by
      rw [advance_queue]
      exact Bool.eq_false_iff.mpr habort
    split
    · next q hq =>
      have hfull : ((pushActive (advance c n) (advanced c n s)).queue q).slot.isFull = true := by
        rw [pushActive_slot]
        exact isFull_of_eligible (preemptor_some hq).1
      exact selectAfter_schedule hactive ((preempt_order hactive habort hq).trans (startRecord_order _ _))
        (startRecord_served hfull) (startRecord_claims _ _)
    · exact selectAfter_schedule hactive (beginSegment_order _)
        (fun h => served_of_active (by rw [beginSegment_active h]; rfl)) (beginSegment_claims _)

/-- R35's cases. -/
theorem boundaryRule_schedule {c : Context} {s : State} (o : Outcome) (ha : s.active = some c) :
    s.standing.Keeps (boundaryRule c o s).standing := by
  cases o with
  | success n => exact boundaryRule_success_schedule n ha
  | _ => exact select_schedule (endActive_order _ _ _ _ s)

theorem applyWaiting_standing (s : State) : (applyWaiting s).standing = s.standing := by
  unfold applyWaiting applyUpdate
  split
  · dsimp only
    split <;> rfl
  · rfl

theorem segmentBoundary_schedule (o : Outcome) (s : State) : s.standing.Keeps (segmentBoundary o s).standing := by
  unfold segmentBoundary
  split
  · exact .refl _
  · next c ha =>
    have hrule : s.standing.Keeps (boundaryRule c o { applyWaiting s with segment := none }).standing := by
      rw [← applyWaiting_standing s]
      exact boundaryRule_schedule (s := { applyWaiting s with segment := none }) o ((applyWaiting_active s).trans ha)
    dsimp only
    split
    · next b _ =>
      refine hrule.trans (.trans (.of_eq ?_) (selectOnFree_schedule _ _))
      exact completeAdmin_standing _ _ _ _ _
    · exact hrule

theorem moverTakes_schedule (k : Nat) (r : Resolution) (s : State) : s.standing.Keeps (moverTakes k r s).standing := by
  unfold moverTakes
  split
  · split
    · exact .refl _
    · exact segmentBoundary_schedule _ s
  · exact .refl _

end Sys2Proof.Machine
end

section
/-! PROOF. Engine control, the admin commands and the clients' answers keep the laws of a state's standing (R25 to R27,
R29, R56). -/

namespace Sys2Proof.Machine

theorem Standing.Keeps.of_same {a b c : Standing} (h : b = a) (k : b.Keeps c) : a.Keeps c := h ▸ k

/-! ## Engine states -/

theorem Standing.KeepsOrder.setEngine (a : Standing) (e : EngineState) : a.KeepsOrder { a with engine := e } :=
  ⟨fun h => ⟨h.nodup, h.running, h.suspended⟩, fun _ h => ⟨h.drain, h.abort⟩,
    fun h => ⟨h.idle, h.current, h.falls, h.range, h.levels⟩, id, id⟩

/-- A state other than RUNNING is entered while no claim is deferred. -/
theorem Standing.keeps_setEngine {a : Standing} {e : EngineState} (he : e ≠ .running)
    (hc : a.engine ≠ .running ∨ a.claimDeferred = false) : a.Keeps { a with engine := e } := by
  refine ⟨.setEngine a e, fun _ hr => absurd hr he, fun hd ht => ?_⟩
  rcases hc with hn | hn
  · exact absurd (hd ht).1 hn
  · cases hn.symm.trans ht

theorem grantAll_standing (s : State) : (grantAll s).standing = s.standing := by
  have hi := grantAll_onlyIssues s
  obtain ⟨-, -, -, -, -, -, hengine, -, -, -, -, -, -, -, hlevel, hactive, hstack, horder, -, -, -, -, -, hheld, -, hclaim, -⟩ :=
    hi.fields
  simp only [State.standing, hi.queue, hengine, hlevel, hactive, hstack, horder, hheld, hclaim]

theorem grantAll_schedule (s : State) : s.standing.Keeps (grantAll s).standing := .of_eq (grantAll_standing s)

theorem enterStarting_schedule {s : State} (hc : s.engine ≠ .running ∨ s.claimDeferred = false) :
    s.standing.Keeps (enterStarting s).standing := by
  unfold enterStarting
  dsimp only
  split
  · exact Standing.keeps_setEngine (a := s.standing) (e := .starting) nofun hc
  · exact Standing.keeps_setEngine (a := s.standing) (e := .failed) nofun hc

/-- The engine enters RUNNING, and selection follows (R161). -/
theorem enterRunning_schedule (b : List Byte) (s : State) : s.standing.Keeps (select (enterRunning b s)).standing :=
  select_schedule (s := enterRunning b s) (.setEngine s.standing .running)

theorem rootResolved_schedule (r : Resolution) {s : State} (hc : s.claimDeferred = false) :
    s.standing.Keeps (rootResolved r s).standing := by
  have hleave (e : EngineState) (he : e ≠ .running) : s.standing.Keeps { s.standing with engine := e } :=
    Standing.keeps_setEngine he (.inr hc)
  unfold rootResolved
  split
  · dsimp only
    split
    · split
      · split
        · exact enterRunning_schedule _ { s with rootRead := .none }
        · exact hleave .failed nofun
      · exact hleave .stopped nofun
    · split
      · exact hleave .failed nofun
      · exact hleave .stopped nofun
  · exact .refl _

theorem stopQueue_schedule (q : WqId) (s : State) : s.standing.Keeps (stopQueue q s).standing := by
  have hempty : s.standing.Keeps (emptySlot q s).standing := .of_eq (emptySlot_standing q s)
  unfold stopQueue
  dsimp only
  split
  · next hq =>
    rw [setQueue_standing]
    refine hempty.trans (Standing.keeps_setQueue (fun _ => ?_) ⟨nofun, nofun⟩ rfl rfl (.inl rfl))
    show QueueState.Quiet ((emptySlot q s).queue q).state
    rcases hq with hq | hq <;> rw [hq] <;> exact ⟨nofun, nofun⟩
  · exact hempty

theorem foldl_schedule {α : Type} {f : State → α → State} (hf : ∀ (s : State) (x : α), s.standing.Keeps (f s x).standing)
    (l : List α) (s : State) : s.standing.Keeps (l.foldl f s).standing := by
  induction l generalizing s with
  | nil => exact .refl _
  | cons x xs ih => exact (hf s x).trans (ih _)

theorem Standing.keeps_stop (a : Standing) : a.Keeps { a with engine := .stopping, claimDeferred := false } :=
  ⟨(KeepsOrder.claims a false).trans (.setEngine _ _), fun _ => nofun, fun _ => nofun⟩

theorem enterStopping_schedule (s : State) : s.standing.Keeps (enterStopping s).standing := by
  have hstop : s.standing.Keeps { s with engine := .stopping, claimDeferred := false : State }.standing := s.standing.keeps_stop
  have hstack := endStackStopped_schedule (s := { s with engine := .stopping, claimDeferred := false }) s.stack rfl
  exact hstop.trans (hstack.trans (foldl_schedule (f := fun t q => stopQueue q t) (fun t q => stopQueue_schedule q t) _ _))

theorem reachStopped_schedule {s : State} (he : s.engine ≠ .running) : s.standing.Keeps (reachStopped s).standing := by
  have hrest : s.standing.Keeps (atRest s).standing := Standing.keeps_setEngine (a := s.standing) (e := .stopped) nofun (.inl he)
  have hreach : reachStopped s = if s.run = true then enterStarting (atRest s) else atRest s := rfl
  rw [hreach]
  split
  · exact hrest.trans (enterStarting_schedule (.inl nofun))
  · exact hrest

theorem stopProgress_schedule (s : State) : s.standing.Keeps (stopProgress s).standing := by
  rcases stopProgress_cases s with h | ⟨_, _, h⟩ | ⟨he, _, h | h⟩ <;> rw [h]
  · exact .refl _
  · exact .refl _
  · exact reachStopped_schedule (by rw [he]; exact nofun)
  · exact reachStopped_schedule (s := dropOccupied s) (by rw [show (dropOccupied s).engine = _ from he]; exact nofun)

theorem finishStep_schedule (s : State) : s.standing.Keeps (finishStep s).standing :=
  (stopProgress_schedule s).trans (grantAll_schedule _)

/-- The power-on values, with RESET_N as it was, meet every law (R167). -/
theorem softReset_schedule (s : State) : s.standing.Keeps (softReset s).standing := by
  obtain ⟨howned, hflagged, -, hlevelled, horder, -⟩ := resetMeetsEveryLaw
  exact ⟨⟨fun _ => (ownershipLaw_iff (softReset s)).mp howned, fun _ _ => (queueFlagLaw_iff (softReset s)).mp hflagged,
    fun _ => ((schedulerLaw_iff (softReset s)).mp hlevelled).1, fun _ => horder, id⟩, fun _ => nofun, fun _ => nofun⟩

theorem runTo1_schedule (s : State) : s.standing.Keeps (runTo1 s).standing := by
  unfold runTo1
  split
  · next he => exact (enterStarting_schedule (.inl (by rw [he]; exact nofun))).trans (grantAll_schedule _)
  · exact .refl _

theorem runTo0_schedule (s : State) : s.standing.Keeps (runTo0 s).standing := by
  have hleave (he : s.engine ≠ .running) : s.standing.Keeps { s.standing with engine := .stopped } :=
    Standing.keeps_setEngine nofun (.inl he)
  unfold runTo0
  split
  · exact (enterStopping_schedule s).trans (finishStep_schedule _)
  · next he =>
    split
    · exact hleave (by rw [he]; exact nofun)
    · exact .refl _
  · next he => exact hleave (by rw [he]; exact nofun)
  · exact .refl _

theorem writeControl_schedule (v : Reg) (s : State) : s.standing.Keeps (writeControl v s).standing := by
  unfold writeControl
  split
  · exact softReset_schedule s
  · dsimp only
    split
    · exact .refl _
    · split
      · refine .of_same ?_ (runTo1_schedule _)
        rfl
      · refine .of_same ?_ (runTo0_schedule _)
        rfl

/-! ## The register port -/

theorem unlessHeld_schedule {f : State → State} {s : State} (hf : s.standing.Keeps (f s).standing) :
    s.standing.Keeps (unlessHeld f s).standing := by
  unfold unlessHeld
  split
  · exact hf
  · next n hn =>
    refine ⟨⟨fun h => ⟨h.nodup, h.running, h.suspended⟩, fun _ h => ⟨h.drain, h.abort⟩,
      fun h => ⟨h.idle, h.current, h.falls, h.range, h.levels⟩, id, fun h => ?_⟩, id, id⟩
    cases hn.symm.trans h

theorem writePost_schedule (v : Reg) (s : State) : s.standing.Keeps (writePost v s).standing := by
  unfold writePost
  split
  · exact .refl _
  · split
    · unfold postToAdmin
      dsimp only
      split <;> exact .refl _
    · unfold postToQueue
      dsimp only
      split
      · exact .of_eq (setQueue_standing_same (s := s) rfl)
      · exact .refl _

theorem writeAck_schedule (v : Reg) (s : State) : s.standing.Keeps (writeAck v s).standing := by
  unfold writeAck
  dsimp only
  split
  · exact .refl _
  · split
    · refine .of_same ?_ (grantAll_schedule _)
      rfl
    · exact .refl _

theorem portWrite_schedule (offset : Nat) (v : Reg) (s : State) : s.standing.Keeps (portWrite offset v s).standing := by
  unfold portWrite
  split_ifs
  · exact writeControl_schedule v s
  · exact .refl _
  · exact .refl _
  · exact .refl _
  · exact writePost_schedule v s
  · exact writeAck_schedule v s
  · exact .refl _

theorem portAccess_schedule (a : Access) (s : State) : s.standing.Keeps (portAccess a s).standing := by
  unfold portAccess
  refine Standing.Keeps.trans ?_ (unlessHeld_schedule ?_)
  · split <;> exact .refl _
  · generalize (if a.isWrite = true then s else _) = t
    dsimp only
    split
    · split
      · exact portWrite_schedule ..
      · exact .refl _
    · exact .refl _

/-! ## Admin commands -/

theorem configureQueue_schedule {b : List Byte} {s : State} (hop : adminOpcode b = opConfigureQueue) (h : adminCheck s b = none) :
    s.standing.Keeps (configureQueue b s).standing := by
  obtain ⟨hparam, hstate⟩ := adminCheck_none h
  obtain ⟨-, -, -, -, hlevel, -⟩ := (parametersOk_configureQueue hop).mp hparam
  have hdisabled : (s.queue (adminQueue b)).state = .disabled := by
    by_contra hn
    simp [stateRefusal_configureQueue s hop, hn] at hstate
  have hquiet : (s.queue (adminQueue b)).state.Quiet := by
    rw [hdisabled]
    exact ⟨nofun, nofun⟩
  rw [configureQueue, completeAdmin_standing, setQueue_standing]
  exact Standing.keeps_setQueue (fun _ => hquiet) hquiet rfl rfl (.inr hlevel)

/-- A queue enters IDLE from a state without a context. -/
theorem toIdle_schedule {s : State} {q : WqId} {d : Queue} (hq : (s.queue q).state.Quiet)
    (hd : d.standing = { (s.queue q).standing with state := .idle }) : s.standing.Keeps (s.setQueue q d).standing := by
  rw [setQueue_standing, hd]
  exact Standing.keeps_setQueue (fun _ => hq) ⟨nofun, nofun⟩ rfl rfl (.inl rfl)

theorem completeAdmin_schedule (b : List Byte) (st : Status) (sub : Sub) (d : Nat) (s : State) :
    s.standing.Keeps (completeAdmin b st sub d s).standing := .of_eq (completeAdmin_standing ..)

theorem enableQueue_schedule (b : List Byte) (s : State) : s.standing.Keeps (enableQueue b s).standing := by
  unfold enableQueue
  dsimp only
  split
  · next hq =>
    refine (toIdle_schedule ?_ rfl).trans ((completeAdmin_schedule ..).trans (selectOnIdle_schedule _ _))
    rw [hq]
    exact ⟨nofun, nofun⟩
  · exact completeAdmin_schedule ..

theorem resumeQueue_schedule {b : List Byte} {s : State} (hop : adminOpcode b = opResumeQueue) (h : adminCheck s b = none) :
    s.standing.Keeps (resumeQueue b s).standing := by
  refine (toIdle_schedule ?_ rfl).trans ((completeAdmin_schedule ..).trans (selectOnIdle_schedule _ _))
  rw [halted_of_resume hop h]
  exact ⟨nofun, nofun⟩

theorem disabledNow_schedule {q : WqId} {s : State} (hq : (s.queue q).state.Quiet) :
    s.standing.Keeps (disabledNow q s).standing := by
  rw [disabledNow, setQueue_standing, emptySlot_standing]
  have hsame := emptySlot_queue_standing q q s
  refine Standing.keeps_setQueue (fun _ => hq) ⟨nofun, nofun⟩ ?_ ?_ (.inl ?_)
  · exact (congrArg QueueStanding.drain hsame :)
  · exact (congrArg QueueStanding.abortPending hsame :)
  · exact (congrArg QueueStanding.level hsame :)

theorem drainRequested_schedule {q : WqId} {s : State} (hq : (s.queue q).state = .running ∨ (s.queue q).state = .suspended) :
    s.standing.Keeps (drainRequested q s).standing := by
  have hset := setQueue_standing (reserve (.drain q) 0 s) q { s.queue q with drain := true }
  rw [drainRequested, emptySlot_standing, hset]
  exact Standing.keeps_setFlags (a := s.standing) rfl rfl (.inr hq) fun _ => .inl rfl

theorem applyDisable_schedule {b : List Byte} {q : WqId} {s t : State} (h : applyDisable b q s = some t) :
    s.standing.Keeps t.standing := by
  have hsome {u : State} {sub : Sub} (hu : s.standing.Keeps u.standing) (e : some (completeAdmin b .ok sub 0 u) = some t) :
      s.standing.Keeps t.standing := Option.some.inj e ▸ hu.trans (completeAdmin_schedule ..)
  have hnow (hq : (s.queue q).state.Quiet) := disabledNow_schedule hq
  have hlater := drainRequested_schedule (q := q) (s := s)
  unfold applyDisable at h
  dsimp only at h
  split at h
  · exact hsome (.refl _) h
  · next hq => exact hsome (hnow (by rw [hq]; exact ⟨nofun, nofun⟩)) h
  · next hq => exact hsome (hnow (by rw [hq]; exact ⟨nofun, nofun⟩)) h
  · next hq =>
    split_ifs at h
    · exact hsome (.refl _) h
    · exact hsome (.refl _) h
    · exact hsome (hlater (.inl hq)) h
  · next hq =>
    split_ifs at h
    · exact hsome (.refl _) h
    · exact hsome (.refl _) h
    · exact hsome (hlater (.inr hq)) h

theorem disableQueue_schedule (b : List Byte) (s : State) : s.standing.Keeps (disableQueue b s).standing := by
  unfold disableQueue
  split
  · next h => exact applyDisable_schedule h
  · exact .refl _

/-- An abort is finished on a queue without a context (R42). -/
theorem finishAbort_schedule (b : List Byte) {q : WqId} (sub : Sub) {s : State}
    (hq : s.standing.Owned → (s.queue q).state.Quiet) : s.standing.Keeps (finishAbort b q sub s).standing := by
  rw [finishAbort_standing]
  exact Standing.keeps_setQueue hq ⟨nofun, nofun⟩ rfl rfl (.inl rfl)

theorem ownsActive_iff (s : State) (q : WqId) : ownsActive s q = true ↔ q ∈ s.standing.active.toList.map Prod.fst := by
  unfold ownsActive
  simp only [State.standing]
  cases s.active <;> simp [Context.seat, eq_comm]

theorem stackedContext_eq_none_iff (s : State) (q : WqId) : stackedContext s q = none ↔ q ∉ s.standing.stack.map Prod.fst := by
  simp [stackedContext, State.standing, Context.seat]

/-- The queue of a context that has just left the stack (R33, R34). -/
theorem abortStacked_quiet (c : Context) (s : State) : ((abortStacked c s).queue c.queue).state.Quiet := by
  obtain ⟨e, he, hs⟩ := endContext_standing c .aborted .none c.done 0 true
    { s with stack := s.stack.eraseP fun p => p.queue == c.queue }
  have hqueue := congrFun (congrArg Standing.queue hs) c.queue
  rw [Standing.setQueue_self] at hqueue
  have hstate : ((abortStacked c s).queue c.queue).state = e.state := congrArg QueueStanding.state hqueue
  rw [hstate]
  exact he.quiet

theorem queue_of_stackedContext {s : State} {q : WqId} {c : Context} (h : stackedContext s q = some c) : c.queue = q := by
  simpa using List.find?_some h

theorem abortQueue_schedule (b : List Byte) (s : State) : s.standing.Keeps (abortQueue b s).standing := by
  unfold abortQueue
  dsimp only
  split
  · next hactive =>
    have hset := setQueue_standing s (adminQueue b) { s.queue (adminQueue b) with abortPending := true }
    show s.standing.Keeps (s.setQueue _ _).standing
    rw [hset]
    exact Standing.keeps_setFlags (a := s.standing) rfl rfl (.inl rfl)
      fun ho => .inr ((ho.running _).mpr ((ownsActive_iff s _).mp hactive))
  · next hactive =>
    split
    · next c hc =>
      have hquiet := abortStacked_quiet c s
      rw [queue_of_stackedContext hc] at hquiet
      exact (abortStacked_schedule (List.mem_of_find?_eq_some hc)).trans (finishAbort_schedule b .stacked fun _ => hquiet)
    · next hc =>
      refine finishAbort_schedule b .none fun ho => ⟨fun hr => hactive ?_, fun hs => ?_⟩
      · exact (ownsActive_iff s _).mpr ((ho.running _).mp hr)
      · exact (stackedContext_eq_none_iff s _).mp hc ((ho.suspended _).mp hs)

theorem handUpdate_schedule (u : ApertureUpdate) (b : List Byte) (s : State) : s.standing.Keeps (handUpdate u b s).standing := by
  unfold handUpdate
  split
  · exact .refl _
  · refine .trans (.of_eq ?_) (completeAdmin_schedule ..)
    unfold applyUpdate
    split <;> rfl

theorem clearCounters_standing (s : State) : (clearCounters s).standing = s.standing := by
  rw [clearCounters_all]
  have hqueue (q : WqId) : (s.queues.map zeroedQueue)[q] = zeroedQueue s.queues[q] := Vector.getElem_map ..
  simp only [State.standing, State.queue, hqueue]
  rfl

theorem waitFor_standing (b : List Byte) (p : AdminPoint) (s : State) : (waitFor b p s).standing = s.standing := rfl

theorem readStatistics_schedule (b : List Byte) (s : State) : s.standing.Keeps (readStatistics b s).standing := by
  refine .of_eq ?_
  unfold readStatistics
  dsimp only
  rw [waitFor_standing]
  split
  · exact clearCounters_standing s
  · rfl

/-! ## A checked record -/

theorem executeRecord_schedule {refusal : Option (Status × Sub)} {run : List Byte → State → State} {b : List Byte} {s : State}
    (h : refusal = none → s.standing.Keeps (run b s).standing) : s.standing.Keeps (executeRecord refusal run b s).standing := by
  unfold executeRecord
  refine Standing.Keeps.trans ?_ ((selectOnFree_schedule _ _).trans (finishStep_schedule _))
  split
  · exact completeAdmin_schedule ..
  · exact h rfl

theorem setEngine_schedule (b : List Byte) (s : State) : s.standing.Keeps (setEngine b s).standing :=
  completeAdmin_schedule _ _ _ _ { s with requestTimeout := paramTimeout b, stopGrace := paramGrace b }

theorem configureCq_schedule (b : List Byte) (s : State) : s.standing.Keeps (configureCq b s).standing :=
  completeAdmin_schedule _ _ _ _ (s.setRing _ _)

theorem markRecord_schedule (b : List Byte) (s : State) : s.standing.Keeps (markRecord b s).standing := completeAdmin_schedule ..

theorem ite_schedule {p : Prop} [Decidable p] {f g : State → State} {s : State} (hf : p → s.standing.Keeps (f s).standing)
    (hg : s.standing.Keeps (g s).standing) : s.standing.Keeps ((if p then f else g) s).standing := by
  split
  · next h => exact hf h
  · exact hg

theorem carryOut_schedule {b : List Byte} {s : State} (h : adminCheck s b = none) : s.standing.Keeps (carryOut b s).standing :=
  ite_schedule (fun _ => setEngine_schedule b s) <|
  ite_schedule (fun hop => configureQueue_schedule hop h) <|
  ite_schedule (fun _ => enableQueue_schedule b s) <|
  ite_schedule (fun _ => disableQueue_schedule b s) <|
  ite_schedule (fun _ => abortQueue_schedule b s) <|
  ite_schedule (fun hop => resumeQueue_schedule hop h) <|
  ite_schedule (fun _ => configureCq_schedule b s) <|
  ite_schedule (fun _ => handUpdate_schedule _ b s) <|
  ite_schedule (fun _ => handUpdate_schedule _ b s) <|
  ite_schedule (fun _ => readStatistics_schedule b s) <|
  ite_schedule (fun _ => .refl _) <|
  markRecord_schedule b s

/-! ## What comes before an event -/

theorem settleRecord_schedule {s : State} (hd : DueLaw s) : s.standing.Keeps (settleRecord s).standing := by
  unfold settleRecord
  split
  · next h => exact executeRecord_schedule fun hn => carryOut_schedule ((hd.verdict h).symm.trans hn)
  · exact .refl _

theorem settleDeferred_schedule (s : State) : s.standing.Keeps (settleDeferred s).standing := by
  unfold settleDeferred
  split
  · exact (select_schedule (.refl _)).trans (grantAll_schedule _)
  · exact .refl _

theorem lookAgain_schedule {s t : State} (h : lookAgain s = some t) : s.standing.Keeps t.standing := by
  unfold lookAgain at h
  split at h
  · split at h
    · next hu =>
      cases h
      refine (applyDisable_schedule hu).trans (.trans ?_ (finishStep_schedule _))
      split
      · exact settleClaim_schedule ..
      · exact selectOnFree_schedule ..
    · cases h
  · cases h

theorem settleLook_schedule (s : State) : s.standing.Keeps (settleLook s).standing := by
  unfold settleLook
  split
  · cases h : lookAgain s with
    | none => exact .refl _
    | some t => exact lookAgain_schedule h
  · exact .refl _

theorem settleDue_schedule {s : State} (hd : DueLaw s) : s.standing.Keeps (settleDue s).standing :=
  (settleRecord_schedule hd).trans ((settleDeferred_schedule _).trans ((settleLook_schedule _).trans (settleDeferred_schedule _)))

/-- No claim is deferred once what is due has been done (log 6). -/
theorem settleDeferred_claimDeferred (s : State) : (settleDeferred s).claimDeferred = false := by
  unfold settleDeferred
  split
  · exact (congrArg Standing.claimDeferred (grantAll_standing _)).trans (select_claimDeferred s)
  · next h => simpa using h

theorem settleDue_claimDeferred (s : State) : (settleDue s).claimDeferred = false := settleDeferred_claimDeferred _

theorem disableApplied_schedule (s : State) : s.standing.Keeps (disableApplied s).standing := by
  unfold disableApplied
  split
  · next h => exact lookAgain_schedule h
  · exact settleDeferred_schedule s

/-- An admin row keeps the laws when its effect does for a record of its own that has passed the checks. -/
theorem adminRow_schedule {mine : Nat → Bool} {run : List Byte → State → State} {s : State} (hd : DueLaw s)
    (hrun : ∀ b, mine (adminOpcode b) = true → adminCheck s b = none → s.standing.Keeps (run b s).standing) :
    s.standing.Keeps (adminRow mine run s).standing := by
  unfold adminRow
  split
  · next b v h =>
    split
    · next hm => exact executeRecord_schedule fun hn => hrun b hm ((hd.verdict h).symm.trans hn)
    · exact settleDue_schedule hd
  · exact settleDue_schedule hd

/-! ## The clients' answers -/

theorem entryWritten_schedule (c : CqId) (s : State) : s.standing.Keeps (entryWritten c s).standing := by
  unfold entryWritten
  split
  · exact .refl _
  · exact claimFreed_schedule { s.setRing c _ with occupied := _ }

theorem ringBroken_schedule (c : CqId) (s : State) : s.standing.Keeps (ringBroken c s).standing := by
  unfold ringBroken
  split
  · exact .refl _
  · exact claimFreed_schedule { s.setRing c _ with occupied := _ }

theorem fetchData_schedule (f : Fetch) (b : List Byte) (s : State) : s.standing.Keeps (fetchData f b s).standing := by
  unfold fetchData
  extract_lets d slot
  have hset : (s.setQueue f.queue { d with slot := slot }).standing = s.standing := setQueue_standing_same rfl
  exact (Standing.Keeps.of_eq hset).trans
    (claimFreed_schedule { (release .fetch s).setQueue f.queue { d with slot := slot } with fetch := none })

theorem fetchFailed_schedule (f : Fetch) (timeout : Bool) (s : State) : s.standing.Keeps (fetchFailed f timeout s).standing := by
  have hset (d : Queue) (h : d.standing = (s.queue f.queue).standing) : (s.setQueue f.queue d).standing = s.standing :=
    setQueue_standing_same h
  unfold fetchFailed
  dsimp only
  split_ifs with hcancelled howns
  · refine .of_same ?_ (claimFreed_schedule _)
    exact hset { s.queue f.queue with slot := .empty } rfl
  · refine .of_same ?_ (claimFreed_schedule _)
    exact hset { s.queue f.queue with slot := .empty, hold := true } rfl
  · have hquiet : (s.queue f.queue).state.Quiet := by
      simp only [ownsContext, Bool.or_eq_true, beq_iff_eq, not_or] at howns
      exact howns
    refine .trans ?_ (.trans (.of_eq (place_standing ..)) (selectOnFree_schedule _ _))
    rw [setQueue_standing]
    exact Standing.keeps_setQueue (a := s.standing) (fun _ => hquiet) ⟨nofun, nofun⟩ rfl rfl (.inl rfl)

theorem fetchTakes_schedule (r : Resolution) (s : State) : s.standing.Keeps (fetchTakes r s).standing := by
  unfold fetchTakes
  split
  · exact .refl _
  · split
    · exact fetchData_schedule ..
    · exact fetchFailed_schedule ..
    · exact fetchFailed_schedule ..

theorem adminRecordTakes_schedule (r : Resolution) (s : State) : s.standing.Keeps (adminRecordTakes r s).standing := by
  unfold adminRecordTakes
  split
  · split
    · exact .refl _
    · refine .trans (.of_eq ?_) (selectOnFree_schedule _ _)
      exact place_standing _ _ _ _ _ { s with admin := .halted _ }
  · exact .refl _

theorem adminWriteTakes_schedule (k : Nat) (r : Resolution) (s : State) : s.standing.Keeps (adminWriteTakes k r s).standing := by
  unfold adminWriteTakes
  split
  · dsimp only
    split
    · refine .trans ?_ (selectOnFree_schedule _ _)
      split <;> exact completeAdmin_schedule ..
    · exact .refl _
  · exact .refl _

theorem resolve_schedule (o : Owner) (r : Resolution) {s : State} (hc : s.claimDeferred = false) :
    s.standing.Keeps (resolve o r s).standing := by
  cases o with
  | completion c =>
    cases r with
    | ack => exact entryWritten_schedule c s
    | data b => exact entryWritten_schedule c s
    | error => exact ringBroken_schedule c s
    | timeout => exact ringBroken_schedule c s
  | adminRecord => exact adminRecordTakes_schedule r s
  | rootRead => exact rootResolved_schedule r hc
  | adminWrite k => exact adminWriteTakes_schedule k r s
  | fetch => exact fetchTakes_schedule r s
  | mover k => exact moverTakes_schedule k r s

/-! ## The memory port's events, timers and claims -/

theorem takeAnswer_schedule (t : TagId) (o : Owner) (kind : ReqKind) (n : Nat) (r : Result) {s : State}
    (hc : s.claimDeferred = false) : s.standing.Keeps (takeAnswer t o kind n r s).standing :=
  (resolve_schedule _ _ hc).trans ((finishStep_schedule _).trans (grantAll_schedule ((finishStep _).setTag t .free)))

theorem portTakes_schedule (tag : BitVec 8) (r : Result) {s : State} (hc : s.claimDeferred = false) :
    s.standing.Keeps (portTakes tag r s).standing := by
  unfold portTakes
  split
  · dsimp only
    split
    · exact .refl _
    · exact grantAll_schedule { s.setTag _ .free with counters := _ }
    · exact takeAnswer_schedule _ _ _ _ _ hc
  · exact .refl _

theorem takeResponse_schedule (tag : BitVec 8) (r : Result) {s : State} (hd : DueLaw s) :
    s.standing.Keeps (takeResponse tag r s).standing :=
  (settleDue_schedule hd).trans (unlessHeld_schedule (portTakes_schedule tag r (settleDue_claimDeferred s)))

theorem takeTimeout_schedule (t : TagId) {s : State} (hc : s.claimDeferred = false) :
    s.standing.Keeps (takeTimeout t s).standing := by
  unfold takeTimeout
  split
  · exact (resolve_schedule _ _ (s := { s.setTag t .stale with counters := _ }) hc).trans (finishStep_schedule _)
  · exact .refl _

theorem expireAge_schedule (c : CqId) (s : State) : s.standing.Keeps (expireAge c s).standing := by
  unfold expireAge
  split <;> exact .refl _

theorem expireGrace_schedule (s : State) : s.standing.Keeps (expireGrace s).standing := by
  unfold expireGrace
  split
  · exact finishStep_schedule { s with graceTimer := .expired }
  · exact .refl _

theorem takeUp_schedule (s : State) : s.standing.Keeps (takeUp s).standing := by
  unfold takeUp
  split
  · exact (settleClaim_schedule s { reserve .adminRecord 0 s with admin := _ }).trans (grantAll_schedule _)
  · exact settleDeferred_schedule s

theorem fetchIssue_schedule (s : State) : s.standing.Keeps (fetchIssue s).standing := by
  unfold fetchIssue
  split
  · next q _ =>
    unfold beginFetch
    extract_lets d ring
    have hset : (s.setQueue q { d with slot := .filling false }).standing = s.standing := setQueue_standing_same rfl
    exact (Standing.Keeps.of_eq hset).trans ((settleClaim_schedule s
      { (reserve .fetch ring s).setQueue q { d with slot := .filling false } with fetch := _ }).trans (grantAll_schedule _))
  · exact settleDeferred_schedule s

end Sys2Proof.Machine
end

section
/-! PROOF. Every event keeps the laws of a state's standing, but that the power-on reset may hold RESET_N low: the statement
EveryStepKeepsTheSchedulerLaws. -/

namespace Sys2Proof.Machine

/-! ## Every event -/

/-- An event but the power-on reset, which comes to the power-on values from wherever it was (R167). -/
theorem exec_schedule {i : Instr} {s t : State} (hd : DueLaw s) (h : exec i s = .next t) :
    s.standing.Keeps t.standing ∨ ∃ u, t = powerOnReset u := by
  have hop {op : Nat} {b : List Byte} (e : isOp op (adminOpcode b) = true) : adminOpcode b = op := by simpa [isOp] using e
  have hdue := settleDue_schedule hd
  have hclaim := settleDue_claimDeferred s
  have hafter {t : State} (k : (settleDue s).standing.Keeps t.standing) : s.standing.Keeps t.standing := hdue.trans k
  have hlook := (settleRecord_schedule hd).trans (settleLook_schedule (settleRecord s))
  cases i <;> cases h
  case powerOnReset => exact .inr ⟨_, rfl⟩
  all_goals refine .inl ?_
  case softReset v => exact hafter (unlessHeld_schedule (writeControl_schedule v _))
  case runWritten1 v => exact hafter (unlessHeld_schedule (writeControl_schedule v _))
  case runWritten0 v => exact hafter (unlessHeld_schedule (writeControl_schedule v _))
  case notifyEnable v => exact hafter (unlessHeld_schedule (writeControl_schedule v _))
  case flagsClear v => exact hafter (unlessHeld_schedule (f := writeFlags v) (.refl _))
  case registerWrite => exact hafter (portAccess_schedule ..)
  case misusedAccess => exact hafter (portAccess_schedule ..)
  case postWork v => exact hafter (unlessHeld_schedule (writePost_schedule v _))
  case postAdmin v => exact hafter (unlessHeld_schedule (writePost_schedule v _))
  case cqAck v => exact hafter (unlessHeld_schedule (writeAck_schedule v _))
  case unknownOpcode => exact adminRow_schedule hd fun b _ _ => markRecord_schedule b s
  case setEngine => exact adminRow_schedule hd fun b _ _ => setEngine_schedule b s
  case configureQueue => exact adminRow_schedule hd fun b e hc => configureQueue_schedule (hop e) hc
  case enableQueue => exact adminRow_schedule hd fun b _ _ => enableQueue_schedule b s
  case disableQueue => exact adminRow_schedule hd fun b _ _ => disableQueue_schedule b s
  case disableQueueApplied => exact (settleRecord_schedule hd).trans (disableApplied_schedule _)
  case abortQueue => exact adminRow_schedule hd fun b _ _ => abortQueue_schedule b s
  case resumeQueue => exact adminRow_schedule hd fun b e hc => resumeQueue_schedule (hop e) hc
  case configureCq => exact adminRow_schedule hd fun b _ _ => configureCq_schedule b s
  case loadAperture => exact adminRow_schedule hd fun b _ _ => handUpdate_schedule _ b s
  case clearAperture => exact adminRow_schedule hd fun b _ _ => handUpdate_schedule _ b s
  case readStatistics => exact adminRow_schedule hd fun b _ _ => readStatistics_schedule b s
  case queryQueue => exact adminRow_schedule hd fun b _ _ => .refl _
  case mark => exact adminRow_schedule hd fun b _ _ => markRecord_schedule b s
  case takeUp => exact hlook.trans (takeUp_schedule _)
  case fetchIssue => exact hlook.trans (fetchIssue_schedule _)
  case dataOrAckResponse => exact takeResponse_schedule _ _ hd
  case errorResponse => exact takeResponse_schedule _ _ hd
  case requestTimeout tag => exact hafter (takeTimeout_schedule tag hclaim)
  case lateResponse => exact takeResponse_schedule _ _ hd
  case strayResponse => exact takeResponse_schedule _ _ hd
  case ageTimerExpiry c => exact hafter (expireAge_schedule c _)
  case stopGraceExpiry => exact hafter (expireGrace_schedule _)

theorem step_schedule {s t : State} (hd : DueLaw s) (h : step s = .next t) :
    s.standing.Keeps t.standing ∨ ∃ u, t = powerOnReset u := by
  unfold step at h
  split at h
  · cases h
    exact .inl (settleDue_schedule hd)
  · next rest _ => exact exec_schedule (s := { s with pending := rest }) (hd.pending rest) h

/-- Outside RUNNING nothing is stacked (R45, R154). -/
theorem EngineLaw.stack_eq_nil {s : State} (h : EngineLaw s) (hn : s.engine ≠ .running) : s.stack = [] := by
  obtain ⟨-, -, -, -, -, -, hstack, -⟩ := h
  exact hstack hn

/-- Settles O58: `exec_schedule`, with `EngineLaw` for a mover that is idle outside RUNNING. -/
theorem everyStepKeepsTheSchedulerLaws : Obligations.EveryStepKeepsTheSchedulerLaws := by
  intro s t he hd h
  obtain ⟨-, -, -, hreset, horder, -⟩ := resetMeetsEveryLaw
  rcases step_schedule hd h with k | ⟨u, rfl⟩
  · refine ⟨fun hs => ?_, k.startOrder⟩
    obtain ⟨hlevelled, hstack⟩ := (schedulerLaw_iff s).mp hs
    refine (schedulerLaw_iff t).mpr ⟨k.levelled hlevelled, fun ha => ?_⟩
    have hserved : t.standing.Served := k.served fun _ hn => by
      have hnone : s.active = none := Option.map_eq_none_iff.mp hn
      simp [State.standing, hstack hnone]
    by_cases hr : t.engine = .running
    · exact List.map_eq_nil_iff.mp (hserved hr (by simp [State.standing, ha]))
    · exact (everyStepKeepsTheEngineLaw s t he h).stack_eq_nil hr
  · exact ⟨fun _ => hreset, fun _ => horder⟩

end Sys2Proof.Machine
end

section
/-! PROOF. What comes before an event leaves nothing due, and a command whose event cannot occur changes nothing but that: the
statement ImpossibleEventsChangeNothing. -/

namespace Sys2Proof.Machine

/-! ## What lasts of the admin unit's state -/

/-- What holds of an IDLE admin unit and does not look at what is out. -/
structure AdminState.Lasts (P : AdminState → Prop) : Prop where
  idle : P .idle
  unissued : ∀ a, P a.unissued ↔ P a

/-- No record has been checked that is still to be carried out (log 5). -/
def AdminState.NotChecked (a : AdminState) : Prop := ∀ b v, a ≠ .executing b (.checked v)

theorem lasts_idle : AdminState.Lasts (· = .idle) where
  idle := rfl
  unissued a := by
    cases a with
    | executing b p => cases p <;> simp [AdminState.unissued]
    | _ => simp [AdminState.unissued]

theorem lasts_notChecked : AdminState.Lasts AdminState.NotChecked where
  idle _ _ := nofun
  unissued a := by
    cases a with
    | executing b p => cases p <;> simp [AdminState.unissued, AdminState.NotChecked]
    | _ => simp [AdminState.unissued, AdminState.NotChecked]

namespace AdminState.Lasts

variable {P : AdminState → Prop} (hP : AdminState.Lasts P)
include hP

theorem scheduler : SchedulerKeeps fun s => P s.admin where
  claims _ _ h := h
  level _ h := h
  advance _ h _ := h
  segment _ h _ := h
  ends st sub p d h ha := by
    simp only [endActive, ha]
    split
    · exact hP.idle
    · rwa [endContext_admin]
  start h _ _ _ := by rwa [makeActive_admin]
  resume h _ _ _ := h
  preempt h _ _ _ := by
    rw [makeActive_admin]
    exact h

theorem grantAll (s : State) : P (Machine.grantAll s).admin ↔ P s.admin := by
  rw [← hP.unissued (Machine.grantAll s).admin, ← hP.unissued s.admin]
  exact iff_of_eq (congrArg (fun t : State => P t.admin) (grantAll_onlyIssues s).1)

theorem reachStopped {s : State} (h : P s.admin) : P (Machine.reachStopped s).admin := by
  have hrest : P (atRest s).admin := by
    unfold atRest
    dsimp only
    split
    · exact hP.idle
    · exact h
  have hreach : Machine.reachStopped s = if s.run = true then enterStarting (atRest s) else atRest s := rfl
  rw [hreach]
  split
  · unfold enterStarting
    dsimp only
    split <;> exact hrest
  · exact hrest

theorem stopProgress {s : State} (h : P s.admin) : P (Machine.stopProgress s).admin := by
  rcases stopProgress_cases s with hp | ⟨_, _, hp⟩ | ⟨_, _, hp | hp⟩ <;> rw [hp]
  · exact h
  · exact h
  · exact hP.reachStopped h
  · exact hP.reachStopped (s := dropOccupied s) h

theorem finishStep {s : State} (h : P s.admin) : P (Machine.finishStep s).admin := (hP.grantAll _).mpr (hP.stopProgress h)

theorem selectOnFree (a : State) {s : State} (h : P s.admin) : P (Machine.selectOnFree a s).admin := hP.scheduler.selectOnFree a h

theorem settleDeferred {s : State} (h : P s.admin) : P (Machine.settleDeferred s).admin := by
  unfold Machine.settleDeferred
  split
  · exact (hP.grantAll _).mpr (hP.scheduler.select h)
  · exact h

/-- A look that is made completes its DISABLE QUEUE (R143). -/
theorem lookAgain {s t : State} (h : Machine.lookAgain s = some t) : P t.admin := by
  unfold Machine.lookAgain at h
  split at h
  · split at h
    · next u hu =>
      cases h
      have hdone : P u.admin := by
        obtain ⟨sub, x, -, rfl⟩ := applyDisable_cases hu
        exact hP.idle
      refine hP.finishStep ?_
      split
      · exact hP.scheduler.settleClaim s hdone
      · exact hP.selectOnFree s hdone
    · cases h
  · cases h

theorem settleLook {s : State} (h : P s.admin) : P (Machine.settleLook s).admin := by
  unfold Machine.settleLook
  split
  · cases ht : Machine.lookAgain s with
    | none => exact h
    | some t => exact hP.lookAgain ht
  · exact h

theorem executeRecord {v : Option (Status × Sub)} {run : List Byte → State → State} {b : List Byte} {s : State}
    (h : P (run b s).admin) : P (Machine.executeRecord v run b s).admin := by
  unfold Machine.executeRecord
  refine hP.finishStep (hP.selectOnFree s ?_)
  split
  · exact hP.idle
  · exact h

end AdminState.Lasts

/-! ## A record carried out is no longer checked (R136) -/

theorem enableQueue_notChecked (b : List Byte) (s : State) : (enableQueue b s).admin.NotChecked := by
  unfold enableQueue
  dsimp only
  split
  · exact lasts_notChecked.scheduler.selectOnIdle s lasts_notChecked.idle
  · exact lasts_notChecked.idle

theorem disableQueue_notChecked (b : List Byte) (s : State) : (disableQueue b s).admin.NotChecked := by
  unfold disableQueue
  split
  · next h =>
    obtain ⟨sub, u, -, rfl⟩ := applyDisable_cases h
    exact lasts_notChecked.idle
  · exact fun _ _ => nofun

theorem abortQueue_notChecked (b : List Byte) (s : State) : (abortQueue b s).admin.NotChecked := by
  unfold abortQueue
  dsimp only
  split
  · exact fun _ _ => nofun
  · split <;> exact lasts_notChecked.idle

theorem resumeQueue_notChecked (b : List Byte) (s : State) : (resumeQueue b s).admin.NotChecked :=
  lasts_notChecked.scheduler.selectOnIdle s lasts_notChecked.idle

theorem handUpdate_notChecked (u : ApertureUpdate) (b : List Byte) (s : State) : (handUpdate u b s).admin.NotChecked := by
  unfold handUpdate
  split
  · exact fun _ _ => nofun
  · exact lasts_notChecked.idle

theorem waitFor_admin (b : List Byte) (p : AdminPoint) (s : State) : (waitFor b p s).admin = .executing b p := rfl

theorem readStatistics_notChecked (b : List Byte) (s : State) : (readStatistics b s).admin.NotChecked := by
  unfold readStatistics
  dsimp only
  rw [waitFor_admin]
  exact fun _ _ => nofun

theorem ite_notChecked {p : Prop} [Decidable p] {f g : State → State} {s : State} (hf : (f s).admin.NotChecked)
    (hg : (g s).admin.NotChecked) : ((if p then f else g) s).admin.NotChecked := by
  split
  · exact hf
  · exact hg

theorem carryOut_notChecked (b : List Byte) (s : State) : (carryOut b s).admin.NotChecked :=
  ite_notChecked lasts_notChecked.idle <|
  ite_notChecked lasts_notChecked.idle <|
  ite_notChecked (enableQueue_notChecked b s) <|
  ite_notChecked (disableQueue_notChecked b s) <|
  ite_notChecked (abortQueue_notChecked b s) <|
  ite_notChecked (resumeQueue_notChecked b s) <|
  ite_notChecked lasts_notChecked.idle <|
  ite_notChecked (handUpdate_notChecked _ b s) <|
  ite_notChecked (handUpdate_notChecked _ b s) <|
  ite_notChecked (readStatistics_notChecked b s) <|
  ite_notChecked (fun _ _ => nofun) <|
  lasts_notChecked.idle

/-! ## What comes before an event leaves nothing due (R132, R135; logs 5, 6, 20) -/

theorem settleRecord_notChecked (s : State) : (settleRecord s).admin.NotChecked := by
  unfold settleRecord
  split
  · exact lasts_notChecked.executeRecord (carryOut_notChecked _ s)
  · next h => exact fun b v => h b v

theorem settleDue_notChecked (s : State) : (settleDue s).admin.NotChecked :=
  lasts_notChecked.settleDeferred (lasts_notChecked.settleLook (lasts_notChecked.settleDeferred (settleRecord_notChecked s)))

/-- A look that is due leaves the admin unit IDLE. -/
theorem settleLook_idle {s : State} (h : lookDue s = true) : (settleLook s).admin = .idle := by
  obtain ⟨t, ht⟩ := Option.isSome_iff_exists.mp (lookAgain_of_due h)
  rw [settleLook, if_pos h, ht]
  exact lasts_idle.lookAgain ht

theorem lookDue_of_idle {s : State} (h : s.admin = .idle) : lookDue s = false := by simp [lookDue, h]

theorem settleLook_lookDue (s : State) : lookDue (settleLook s) = false := by
  cases h : lookDue s with
  | true => exact lookDue_of_idle (settleLook_idle h)
  | false => rwa [settleLook_of_not h]

theorem settleDue_lookDue (s : State) : lookDue (settleDue s) = false := by
  have hclaim := settleDeferred_claimDeferred (settleRecord s)
  unfold settleDue
  cases h : lookDue (settleDeferred (settleRecord s)) with
  | true => exact lookDue_of_idle (lasts_idle.settleDeferred (settleLook_idle h))
  | false => rwa [settleLook_of_not h, settleDeferred_of_not hclaim]

theorem nothingDue_iff (s : State) :
    NothingDue s ↔ s.claimDeferred = false ∧ s.admin.NotChecked ∧ lookDue s = false := by
  have hlook : lookDue s = false ↔ ∀ b q, s.admin = .executing b (.waitEntry q) → drainNeedsEntry s q = true := by
    rw [Bool.eq_false_iff, Ne, lookDue_iff]
    simp
  simp only [hlook, drainNeedsEntry_iff]
  rfl

theorem settleDue_nothingDue (s : State) : NothingDue (settleDue s) :=
  (nothingDue_iff _).mpr ⟨settleDue_claimDeferred s, settleDue_notChecked s, settleDue_lookDue s⟩

theorem settleDue_settleDue (s : State) : settleDue (settleDue s) = settleDue s := settleDue_of_nothingDue (settleDue_nothingDue s)

theorem settleRecord_of_notChecked {s : State} (h : s.admin.NotChecked) : settleRecord s = s := settleRecord_of_none h

theorem settleRecord_settleRecord (s : State) : settleRecord (settleRecord s) = settleRecord s :=
  settleRecord_of_notChecked (settleRecord_notChecked s)

theorem settleLook_settleRecord_twice (s : State) :
    settleLook (settleRecord (settleLook (settleRecord s))) = settleLook (settleRecord s) := by
  have hnot := lasts_notChecked.settleLook (settleRecord_notChecked s)
  rw [settleRecord_of_notChecked hnot, settleLook_of_not (settleLook_lookDue _)]

/-! ## A waiting DISABLE QUEUE that needs no entry (R143) -/

theorem settleLook_of_not_waiting {s : State} (h : ∀ b q, s.admin ≠ .executing b (.waitEntry q)) : settleLook s = s :=
  settleLook_of_not (Bool.eq_false_iff.mpr fun hd =>
    have ⟨b, q, hb, _⟩ := (lookDue_iff s).mp hd
    h b q hb)

theorem lookDue_of_waiting {s : State} {b : List Byte} {q : WqId} (h : s.admin = .executing b (.waitEntry q)) :
    lookDue s = true ↔
      ((s.queue q).state ≠ .running ∧ (s.queue q).state ≠ .suspended) ∨ (s.queue q).drain = true ∨ s.engine = .stopping := by
  have hdue : lookDue s = !drainNeedsEntry s q := by simp [lookDue, h]
  rw [hdue, Bool.not_eq_true', Bool.eq_false_iff, Ne, drainNeedsEntry_iff, not_and_or, not_and_or, not_or, not_not,
    Bool.not_eq_false]

/-- The event of such a DISABLE QUEUE is the look that is due. -/
theorem exec_disableQueueApplied_of_due {s : State} (h : lookDue s = true) (hn : s.admin.NotChecked) :
    exec .disableQueueApplied s = .next (settleLook s) := by
  obtain ⟨t, ht⟩ := Option.isSome_iff_exists.mp (lookAgain_of_due h)
  have happlied : disableApplied (settleRecord s) = settleLook s := by
    rw [settleRecord_of_notChecked hn]
    simp only [disableApplied, settleLook, h, ht, if_true]
    rfl
  exact congrArg Host.Outcome.next happlied

/-! ## The rows of the admin commands (R135, R136) -/

/-- `i` is the row of an opcode, and its effect on a record of that opcode is `f`. -/
def CarriesOut (b : List Byte) (i : Instr) (f : State → State) : Prop :=
  ∃ mine run, mine (adminOpcode b) = true ∧ run b = f ∧ ∀ s, exec i s = .next (adminRow mine run s)

theorem CarriesOut.ite {b : List Byte} {k : Nat} {i j : Instr} {g : State → State} (run : List Byte → State → State)
    (hi : ∀ s, exec i s = .next (adminRow (isOp k) run s)) (hj : adminOpcode b ≠ k → CarriesOut b j g) :
    CarriesOut b (if adminOpcode b = k then i else j) (if adminOpcode b = k then run b else g) := by
  split
  · next h => exact ⟨isOp k, run, by rw [h]; exact beq_self_eq_true k, rfl, hi⟩
  · next h => exact hj h

theorem commandOf_carriesOut (b : List Byte) : CarriesOut b (commandOf (adminOpcode b)) (carryOut b) :=
  .ite setEngine (fun _ => rfl) fun h1 =>
  .ite configureQueue (fun _ => rfl) fun h2 =>
  .ite enableQueue (fun _ => rfl) fun h3 =>
  .ite disableQueue (fun _ => rfl) fun h4 =>
  .ite abortQueue (fun _ => rfl) fun h5 =>
  .ite resumeQueue (fun _ => rfl) fun h6 =>
  .ite configureCq (fun _ => rfl) fun h7 =>
  .ite loadAperture (fun _ => rfl) fun h8 =>
  .ite clearAperture (fun _ => rfl) fun h9 =>
  .ite readStatistics (fun _ => rfl) fun h10 =>
  .ite queryQueue (fun _ => rfl) fun h11 => by
    split
    · next h12 => exact ⟨isOp opMark, markRecord, by rw [h12]; rfl, rfl, fun _ => rfl⟩
    · next h12 =>
      exact ⟨fun n => (opcodeRow n).isNone, markRecord,
        by simp [opcodeRow, h1, h2, h3, h4, h5, h6, h7, h8, h9, h10, h11, h12], rfl, fun _ => rfl⟩

/-- The row of a checked record carries it out as what comes before an event would (log 5). -/
theorem exec_commandOf_checked {s : State} {b : List Byte} {v : Option (Status × Sub)}
    (h : s.admin = .executing b (.checked v)) : exec (commandOf (adminOpcode b)) s = .next (settleRecord s) := by
  obtain ⟨mine, run, hmine, hrun, hrow⟩ := commandOf_carriesOut b
  have hsame : executeRecord v run b s = executeRecord v carryOut b s := by simp only [executeRecord, hrun]
  rw [hrow, adminRow_checked h hmine, settleRecord_checked h, hsame]

theorem isNone_ite_some {α : Type} {p : Prop} [Decidable p] {a : α} {x : Option α} :
    (if p then some a else x).isNone = true ↔ ¬ p ∧ x.isNone = true := by
  split <;> simp [*]

/-- An opcode that no row takes is that of UNKNOWN_OPCODE. -/
theorem commandOf_unassigned {op : Nat} (h : (opcodeRow op).isNone = true) : commandOf op = .unknownOpcode := by
  simp only [opcodeRow, isNone_ite_some] at h
  obtain ⟨h1, h2, h3, h4, h5, h6, h7, h8, h9, h10, h11, h12, -⟩ := h
  simp only [commandOf, h1, h2, h3, h4, h5, h6, h7, h8, h9, h10, h11, h12, if_false]

/-- The event of a row is carried out after what is due, unless the checked record is its own. -/
theorem adminRow_after {mine : Nat → Bool} {run : List Byte → State → State} {s : State}
    (h : ∀ b v, s.admin = .executing b (.checked v) → mine (adminOpcode b) = false) :
    adminRow mine run s = adminRow mine run (settleDue s) := by
  have hsettled := settleDue_notChecked s
  rw [adminRow_other h, adminRow_other fun b v hb => absurd hb (hsettled b v), settleDue_settleDue]

/-- What is due comes before every event but the claims, the look and the row of the record that is due (logs 5, 6, 20). -/
theorem exec_after_due {i : Instr} {s : State} (htake : i ≠ .takeUp) (hfetch : i ≠ .fetchIssue) (hlook : i ≠ .disableQueueApplied)
    (h : ∀ b v, s.admin = .executing b (.checked v) → i ≠ commandOf (adminOpcode b)) : exec i s = exec i (settleDue s) := by
  have hafter {f : State → State} :
      (.next (f (settleDue s)) : Host.Outcome State Fault Refusal) = .next (f (settleDue (settleDue s))) := by
    rw [settleDue_settleDue]
  have hrow {k : Nat} {run : List Byte → State → State} (hk : commandOf k = i) :
      (.next (adminRow (isOp k) run s) : Host.Outcome State Fault Refusal) = .next (adminRow (isOp k) run (settleDue s)) := by
    refine congrArg Host.Outcome.next (adminRow_after fun b v hb => Bool.eq_false_iff.mpr fun hm => h b v hb ?_)
    rw [beq_iff_eq.mp hm, hk]
  cases i with
  | takeUp => exact absurd rfl htake
  | fetchIssue => exact absurd rfl hfetch
  | disableQueueApplied => exact absurd rfl hlook
  | setEngine => exact hrow (k := opSetEngine) rfl
  | configureQueue => exact hrow (k := opConfigureQueue) rfl
  | enableQueue => exact hrow (k := opEnableQueue) rfl
  | disableQueue => exact hrow (k := opDisableQueue) rfl
  | abortQueue => exact hrow (k := opAbortQueue) rfl
  | resumeQueue => exact hrow (k := opResumeQueue) rfl
  | configureCq => exact hrow (k := opConfigureCq) rfl
  | loadAperture => exact hrow (k := opLoadAperture) rfl
  | clearAperture => exact hrow (k := opClearAperture) rfl
  | readStatistics => exact hrow (k := opReadStatistics) rfl
  | queryQueue => exact hrow (k := opQueryQueue) rfl
  | mark => exact hrow (k := opMark) rfl
  | unknownOpcode =>
    refine congrArg Host.Outcome.next (adminRow_after fun b v hb => Bool.eq_false_iff.mpr fun hm => h b v hb ?_)
    exact (commandOf_unassigned hm).symm
  | powerOnReset => exact hafter (f := powerOnReset)
  | softReset v => exact hafter (f := unlessHeld (writeControl v))
  | runWritten1 v => exact hafter (f := unlessHeld (writeControl v))
  | runWritten0 v => exact hafter (f := unlessHeld (writeControl v))
  | notifyEnable v => exact hafter (f := unlessHeld (writeControl v))
  | flagsClear v => exact hafter (f := unlessHeld (writeFlags v))
  | registerWrite off v => exact hafter (f := portAccess _)
  | misusedAccess a => exact hafter (f := portAccess a)
  | postWork v => exact hafter (f := unlessHeld (writePost v))
  | postAdmin v => exact hafter (f := unlessHeld (writePost v))
  | cqAck v => exact hafter (f := unlessHeld (writeAck v))
  | dataOrAckResponse tag a => exact hafter (f := unlessHeld (portTakes tag _))
  | errorResponse tag => exact hafter (f := unlessHeld (portTakes tag _))
  | requestTimeout tag => exact hafter (f := takeTimeout tag)
  | lateResponse tag r => exact hafter (f := unlessHeld (portTakes tag _))
  | strayResponse tag r => exact hafter (f := unlessHeld (portTakes tag _))
  | ageTimerExpiry c => exact hafter (f := expireAge c)
  | stopGraceExpiry => exact hafter (f := expireGrace)

/-! ## Events that cannot occur (log 1) -/

section
variable {s : State} (hd : NothingDue s)
include hd

theorem settleLook_of_nothingDue : settleLook (settleRecord s) = s := by
  obtain ⟨-, hchecked, hlook⟩ := (nothingDue_iff s).mp hd
  rw [settleRecord_of_notChecked hchecked, settleLook_of_not hlook]

theorem exec_takeUp_impossible (h : canTakeUp s = false) : exec .takeUp s = .next s := by
  have hidle : takeUp (settleLook (settleRecord s)) = s := by
    rw [settleLook_of_nothingDue hd, takeUp, if_neg (by simp [h]), settleDeferred_of_not hd.1]
  exact congrArg Host.Outcome.next hidle

theorem exec_fetchIssue_impossible (h : fetchClaim s = none) : exec .fetchIssue s = .next s := by
  have hidle : fetchIssue (settleLook (settleRecord s)) = s := by
    rw [settleLook_of_nothingDue hd, fetchIssue, h]
    exact settleDeferred_of_not hd.1
  exact congrArg Host.Outcome.next hidle

theorem exec_requestTimeout_impossible {g : TagId} (h : ∀ o k ad n tm, s.tag g ≠ .inUse o k ad n tm) :
    exec (.requestTimeout g) s = .next s := by
  have hidle : takeTimeout g (settleDue s) = s := by
    rw [settleDue_of_nothingDue hd, takeTimeout]
    split
    · next hg => exact absurd hg (h _ _ _ _ _)
    · rfl
  exact congrArg Host.Outcome.next hidle

theorem exec_ageTimerExpiry_impossible {c : CqId} (h : (s.ring c).ageTimer = none) : exec (.ageTimerExpiry c) s = .next s := by
  rw [exec_ageTimerExpiry hd, expireAge, h]

theorem exec_stopGraceExpiry_impossible (h : ∀ ms, s.graceTimer ≠ .running ms) : exec .stopGraceExpiry s = .next s := by
  rw [exec_stopGraceExpiry hd, expireGrace]
  split
  · next ms hg => exact absurd hg (h ms)
  · rfl

theorem exec_disableQueueApplied_impossible (h : ∀ b q, s.admin ≠ .executing b (.waitEntry q)) :
    exec .disableQueueApplied s = .next s := by
  have hnone : lookAgain s = none := by
    unfold lookAgain
    split
    · next b q hb => exact absurd hb (h b q)
    · rfl
  have hidle : disableApplied (settleRecord s) = s := by
    rw [settleRecord_of_none hd.2.1, disableApplied, hnone]
    exact settleDeferred_of_not hd.1
  exact congrArg Host.Outcome.next hidle

theorem exec_commandOf_impossible (op : Nat) : exec (commandOf op) s = .next s := by
  obtain ⟨mine, run, -, hrow⟩ := commandOf_isRowOf op
  rw [hrow, adminRow_other fun b v hb => absurd hb (hd.2.1 b v), settleDue_of_nothingDue hd]

end

theorem canTakeUp_eq_false {s : State} (h : s.engine ≠ .running ∨ s.admin ≠ .idle ∨ s.adminRing.posted = 0 ∨ freeEntries s = 0) :
    canTakeUp s = false := by
  rw [Bool.eq_false_iff, Ne, canTakeUp_iff]
  rintro ⟨hengine, hidle, hposted, hfree⟩
  rcases h with h | h | h | h
  · exact h hengine
  · exact h hidle
  · omega
  · omega

theorem fetchClaim_eq_none {s : State} (h : s.fetch ≠ none ∨ freeEntries s = 0 ∨ s.engine ≠ .running) : fetchClaim s = none := by
  rcases h with h | h | h
  · simp [fetchClaim, h]
  · simp [fetchClaim, hasFree, h]
  · cases hq : fetchClaim s with
    | none => rfl
    | some q => exact absurd (running_of_fetchCandidate (fetchCandidate_of_claim hq)) h

/-- Settles O30: what comes before an event leaves nothing due (`settleDue_nothingDue`), so doing it twice changes nothing; the rows
are compared opcode by opcode (`commandOf_carriesOut`, `exec_after_due`). -/
theorem impossibleEventsChangeNothing : Obligations.ImpossibleEventsChangeNothing := by
  refine ⟨fun s => ?due, fun i s => ⟨?applied, ?claims, exec_after_due⟩, fun s hd => ?impossible⟩
  case due =>
    refine ⟨settleDue_nothingDue s, settleDue_of_nothingDue, rfl, rfl, settleLook_of_not_waiting, fun b q hb => ⟨fun hn => ?_,
      fun hn => ?_⟩, settleRecord_of_none, fun b v => exec_commandOf_checked⟩
    · exact settleLook_of_not (Bool.eq_false_iff.mpr (mt (lookDue_of_waiting hb).mp hn))
    · have hdue := (lookDue_of_waiting hb).mpr hn
      exact ⟨exec_disableQueueApplied_of_due hdue (by rw [hb]; exact fun _ _ => nofun), settleLook_idle hdue⟩
  case applied =>
    rintro rfl
    exact congrArg (fun x => Host.Outcome.next (disableApplied x)) (settleRecord_settleRecord s).symm
  case claims =>
    rintro (rfl | rfl)
    · exact congrArg (fun x => Host.Outcome.next (takeUp x)) (settleLook_settleRecord_twice s).symm
    · exact congrArg (fun x => Host.Outcome.next (fetchIssue x)) (settleLook_settleRecord_twice s).symm
  case impossible =>
    exact ⟨fun h => exec_takeUp_impossible hd (canTakeUp_eq_false h), fun h => exec_fetchIssue_impossible hd (fetchClaim_eq_none h),
      fun g => exec_requestTimeout_impossible hd, fun c => exec_ageTimerExpiry_impossible hd, exec_stopGraceExpiry_impossible hd,
      exec_disableQueueApplied_impossible hd, exec_commandOf_impossible hd⟩

end Sys2Proof.Machine
end

section
/-! PROOF. Every step keeps what is due as its own step has left it, and the laws of R26 and R56: the statement
EveryStepKeepsOwnershipAndQueueFlags. -/

namespace Sys2Proof.Machine

/-! ## The verdict on a checked record (R132, R135) -/

/-- The verdict on a checked record is that of the state as it stands, and no claim is deferred. -/
def State.VerdictStands (s : State) : Prop :=
  ∀ b v, s.admin = .executing b (.checked v) → v = adminCheck s b ∧ s.claimDeferred = false

theorem AdminState.NotChecked.stands {s : State} (h : s.admin.NotChecked) : s.VerdictStands := fun b v hb => absurd hb (h b v)

theorem any_unissued_ring (l : List Occupied) (c : CqId) :
    ((l.map fun o => { o with inFlight := false }).any fun o => o.ring == c) = l.any fun o => o.ring == c := by
  rw [List.any_map]
  rfl

/-- The five checks do not look at what is out. -/
theorem adminCheck_unissued (s : State) (b : List Byte) : adminCheck s.unissued b = adminCheck s b := by
  have hbusy (c : CqId) : ringBusy s.unissued c = ringBusy s c := by
    simp only [ringBusy, State.unissued, any_unissued_ring]
    rfl
  have hstate : stateRefusal s.unissued b = stateRefusal s b := by
    simp only [stateRefusal, hbusy]
    rfl
  simp only [adminCheck, hstate]

theorem adminCheck_grantAll (s : State) (b : List Byte) : adminCheck (grantAll s) b = adminCheck s b := by
  rw [← adminCheck_unissued (grantAll s), (grantAll_onlyIssues s).1, adminCheck_unissued]

theorem unissued_checked_iff (a : AdminState) (b : List Byte) (v : Option (Status × Sub)) :
    a.unissued = .executing b (.checked v) ↔ a = .executing b (.checked v) := by
  cases a with
  | executing b' p => cases p <;> simp [AdminState.unissued]
  | _ => simp [AdminState.unissued]

theorem grantAll_checked_iff (s : State) (b : List Byte) (v : Option (Status × Sub)) :
    (grantAll s).admin = .executing b (.checked v) ↔ s.admin = .executing b (.checked v) := by
  rw [← unissued_checked_iff (grantAll s).admin, ← unissued_checked_iff s.admin]
  exact iff_of_eq (congrArg (fun t : State => t.admin = .executing b (.checked v)) (grantAll_onlyIssues s).1)

theorem State.VerdictStands.grantAll {s : State} (h : s.VerdictStands) : (grantAll s).VerdictStands := fun b v hb => by
  obtain ⟨hv, hc⟩ := h b v ((grantAll_checked_iff s b v).mp hb)
  exact ⟨(adminCheck_grantAll s b).symm ▸ hv, (congrArg Standing.claimDeferred (grantAll_standing s)).trans hc⟩

/-! ## The register port checks no record -/

theorem endStackStopped_admin (l : List Context) (s : State) : (endStackStopped l s).admin = s.admin := by
  induction l generalizing s with
  | nil => rfl
  | cons c rest ih => rw [endStackStopped, ih, endContext_admin]

theorem foldl_admin {α : Type} {f : State → α → State} (hf : ∀ s x, (f s x).admin = s.admin) (l : List α) (s : State) :
    (l.foldl f s).admin = s.admin := by
  induction l generalizing s with
  | nil => rfl
  | cons x xs ih => rw [List.foldl_cons, ih, hf]

theorem stopQueue_admin (q : WqId) (s : State) : (stopQueue q s).admin = s.admin := by
  unfold stopQueue
  dsimp only
  split <;> exact emptySlot_admin q s

theorem enterStopping_admin (s : State) : (enterStopping s).admin = s.admin :=
  (foldl_admin (f := fun t q => stopQueue q t) (fun t q => stopQueue_admin q t) _ _).trans (endStackStopped_admin _ _)

theorem enterStarting_admin (s : State) : (enterStarting s).admin = s.admin := by
  unfold enterStarting
  dsimp only
  split <;> rfl

section
variable {s : State} (h : s.admin.NotChecked)
include h

theorem runTo1_notChecked : (runTo1 s).admin.NotChecked := by
  unfold runTo1
  split
  · rwa [lasts_notChecked.grantAll, enterStarting_admin]
  · exact h

theorem runTo0_notChecked : (runTo0 s).admin.NotChecked := by
  unfold runTo0
  split
  · refine lasts_notChecked.finishStep ?_
    rwa [enterStopping_admin]
  · split <;> exact h
  · exact h
  · exact h

theorem writeControl_notChecked (v : Reg) : (writeControl v s).admin.NotChecked := by
  unfold writeControl
  split
  · exact lasts_notChecked.idle
  · dsimp only
    split
    · exact h
    · split
      · exact runTo1_notChecked h
      · exact runTo0_notChecked h

theorem unlessHeld_notChecked {f : State → State} (hf : (f s).admin.NotChecked) : (unlessHeld f s).admin.NotChecked := by
  unfold unlessHeld
  split
  · exact hf
  · exact h

theorem endHalt_notChecked : (endHalt s.admin).NotChecked := by
  unfold endHalt
  split
  · exact lasts_notChecked.idle
  · exact h

theorem writePost_notChecked (v : Reg) : (writePost v s).admin.NotChecked := by
  unfold writePost
  split
  · exact h
  · split
    · unfold postToAdmin
      dsimp only
      split
      · exact endHalt_notChecked h
      · exact h
    · unfold postToQueue
      dsimp only
      split <;> exact h

theorem writeAck_notChecked (v : Reg) : (writeAck v s).admin.NotChecked := by
  unfold writeAck
  dsimp only
  split
  · exact h
  · split
    · exact (lasts_notChecked.grantAll _).mpr h
    · exact h

theorem portWrite_notChecked (offset : Nat) (v : Reg) : (portWrite offset v s).admin.NotChecked := by
  unfold portWrite
  split_ifs
  · exact writeControl_notChecked h v
  · exact h
  · exact h
  · exact h
  · exact writePost_notChecked h v
  · exact writeAck_notChecked h v
  · exact h

end

theorem portAccess_notChecked (a : Access) {s : State} (h : s.admin.NotChecked) : (portAccess a s).admin.NotChecked := by
  have hread : (if a.isWrite = true then s else { s with readData := readRegister s a }).admin.NotChecked := by split <;> exact h
  unfold portAccess
  generalize (if a.isWrite = true then s else { s with readData := readRegister s a }) = t at hread ⊢
  refine unlessHeld_notChecked hread ?_
  split
  · split
    · exact portWrite_notChecked hread _ _
    · exact hread
  · exact hread

/-! ## The clients check a record only when its data comes (R132) -/

section
variable {s : State} (h : s.admin.NotChecked)
include h

theorem entryWritten_notChecked (c : CqId) : (entryWritten c s).admin.NotChecked := by
  unfold entryWritten
  split
  · exact h
  · exact lasts_notChecked.scheduler.claimFreed (s := { s.setRing c _ with occupied := _ }) h

theorem ringBroken_notChecked (c : CqId) : (ringBroken c s).admin.NotChecked := by
  unfold ringBroken
  split
  · exact h
  · exact lasts_notChecked.scheduler.claimFreed (s := { s.setRing c _ with occupied := _ }) h

theorem rootResolved_notChecked (r : Resolution) : (rootResolved r s).admin.NotChecked := by
  unfold rootResolved
  split
  · dsimp only
    split
    · split
      · split
        · exact lasts_notChecked.scheduler.select (s := enterRunning _ { s with rootRead := .none }) h
        · exact h
      · exact h
    · split <;> exact h
  · exact h

theorem fetchFailed_notChecked (f : Fetch) (timeout : Bool) : (fetchFailed f timeout s).admin.NotChecked := by
  unfold fetchFailed
  dsimp only
  split_ifs
  · exact lasts_notChecked.scheduler.claimFreed (s := (release .fetch { s with fetch := none }).setQueue f.queue _) h
  · exact lasts_notChecked.scheduler.claimFreed (s := (release .fetch { s with fetch := none }).setQueue f.queue _) h
  · refine lasts_notChecked.selectOnFree _ ?_
    rw [place_admin]
    exact h

theorem fetchTakes_notChecked (r : Resolution) : (fetchTakes r s).admin.NotChecked := by
  unfold fetchTakes
  split
  · exact h
  · next f _ =>
    split
    · exact lasts_notChecked.scheduler.claimFreed (s := { (release .fetch s).setQueue f.queue _ with fetch := none }) h
    · exact fetchFailed_notChecked h f true
    · exact fetchFailed_notChecked h f false

theorem adminWriteTakes_notChecked (k : Nat) (r : Resolution) : (adminWriteTakes k r s).admin.NotChecked := by
  unfold adminWriteTakes
  split
  · dsimp only
    split
    · refine lasts_notChecked.selectOnFree s ?_
      split <;> exact lasts_notChecked.idle
    · exact fun _ _ => nofun
  · exact h

theorem moverTakes_notChecked (k : Nat) (r : Resolution) : (moverTakes k r s).admin.NotChecked := by
  unfold moverTakes
  split
  · next c g ha hg =>
    split
    · exact h
    · next o _ =>
      have hrule : (boundaryRule c o { applyWaiting s with segment := none }).admin.NotChecked :=
        lasts_notChecked.scheduler.boundaryRule (s := { applyWaiting s with segment := none }) o
          (by rwa [show ({ applyWaiting s with segment := none } : State).admin = s.admin from applyWaiting_admin s])
          ((applyWaiting_active s).trans ha)
      simp only [segmentBoundary, ha]
      split
      · exact lasts_notChecked.selectOnFree _ lasts_notChecked.idle
      · exact hrule
  · exact h

theorem adminRecordTakes_notChecked {r : Resolution} (hr : ∀ b, r ≠ .data b) : (adminRecordTakes r s).admin.NotChecked := by
  unfold adminRecordTakes
  split
  · split
    · exact absurd rfl (hr _)
    · refine lasts_notChecked.selectOnFree s ?_
      rw [place_admin]
      exact fun _ _ => nofun
  · exact h

theorem resolve_notChecked {o : Owner} {r : Resolution} (hr : o = .adminRecord → ∀ b, r ≠ .data b) :
    (resolve o r s).admin.NotChecked := by
  cases o with
  | completion c =>
    cases r with
    | ack => exact entryWritten_notChecked h c
    | data b => exact entryWritten_notChecked h c
    | error => exact ringBroken_notChecked h c
    | timeout => exact ringBroken_notChecked h c
  | adminRecord => exact adminRecordTakes_notChecked h (hr rfl)
  | rootRead => exact rootResolved_notChecked h r
  | adminWrite k => exact adminWriteTakes_notChecked h k r
  | fetch => exact fetchTakes_notChecked h r
  | mover k => exact moverTakes_notChecked h k r

end

/-! ## A record's data (R132) -/

/-- A stop whose admin unit is at work makes no progress (R164). -/
theorem stopProgress_of_adminHolds {s : State} (ha : adminHolds s = true) (hg : s.graceTimer = .stopped) : stopProgress s = s := by
  by_cases he : s.engine = .stopping
  · exact stopProgress_waits he hg (unitsIdle_of_adminHolds ha)
  · exact stopProgress_of_not_stopping he

theorem finishStep_verdict {s : State} (h : s.VerdictStands) (ha : adminHolds s = true) (hg : s.graceTimer = .stopped) :
    (finishStep s).VerdictStands := by
  rw [finishStep, stopProgress_of_adminHolds ha hg]
  exact h.grantAll

theorem EngineLaw.grace_of_adminHolds {s : State} (h : EngineLaw s) (ha : adminHolds s = true) : s.graceTimer = .stopped := by
  obtain ⟨-, -, -, -, -, hgrace, -⟩ := h
  by_contra hn
  have := (hgrace hn).2
  rw [unitsIdle_of_adminHolds ha] at this
  cases this

/-- The answer to a record's read ends with the verdict of the state as it stands. -/
theorem takeAnswer_record_verdict {s : State} (t : TagId) (kind : ReqKind) (n : Nat) (r : Result) {b : List Byte}
    (hn : s.admin.NotChecked) (hc : s.claimDeferred = false) (he : EngineLaw s) (hr : resolutionOf kind n r = .data b) :
    (takeAnswer t .adminRecord kind n r s).VerdictStands := by
  have hstands {u : State} (h : (finishStep u).VerdictStands) : (grantAll ((finishStep u).setTag t .free)).VerdictStands :=
    State.VerdictStands.grantAll (s := (finishStep u).setTag t .free) h
  rw [takeAnswer, hr]
  refine hstands ?_
  simp only [resolve, adminRecordTakes]
  split
  · next i out ha =>
    have hgrace := he.grace_of_adminHolds (by simp [adminHolds, ha])
    refine finishStep_verdict (fun b' v hb => ?_) rfl hgrace
    cases hb
    exact ⟨rfl, hc⟩
  · exact (lasts_notChecked.finishStep hn).stands

theorem takeAnswer_verdict {s : State} (t : TagId) (o : Owner) (kind : ReqKind) (n : Nat) (r : Result)
    (hn : s.admin.NotChecked) (hc : s.claimDeferred = false) (he : EngineLaw s) : (takeAnswer t o kind n r s).VerdictStands := by
  by_cases hr : o = .adminRecord → ∀ b, resolutionOf kind n r ≠ .data b
  · have hresolved := lasts_notChecked.finishStep (resolve_notChecked hn hr)
    exact ((lasts_notChecked.grantAll ((finishStep _).setTag t .free)).mpr hresolved).stands
  · push Not at hr
    obtain ⟨rfl, b, hb⟩ := hr
    exact takeAnswer_record_verdict t kind n r hn hc he hb

theorem portTakes_verdict {s : State} (tag : BitVec 8) (r : Result) (hn : s.admin.NotChecked) (hc : s.claimDeferred = false)
    (he : EngineLaw s) : (portTakes tag r s).VerdictStands := by
  unfold portTakes
  split
  · dsimp only
    split
    · exact hn.stands
    · exact ((lasts_notChecked.grantAll { s.setTag _ .free with counters := _ }).mpr hn).stands
    · exact takeAnswer_verdict _ _ _ _ _ hn hc he
  · exact hn.stands

theorem takeResponse_verdict {s : State} (tag : BitVec 8) (r : Result) (he : EngineLaw s) :
    (takeResponse tag r s).VerdictStands := by
  have hn := settleDue_notChecked s
  unfold takeResponse unlessHeld
  split
  · exact portTakes_verdict tag r hn (settleDue_claimDeferred s) (settleDue_engineLaw he)
  · exact hn.stands

/-! ## The other events -/

theorem takeTimeout_notChecked (t : TagId) {s : State} (h : s.admin.NotChecked) : (takeTimeout t s).admin.NotChecked := by
  unfold takeTimeout
  split
  · exact lasts_notChecked.finishStep (resolve_notChecked (s := { s.setTag t .stale with counters := _ }) h fun _ _ => nofun)
  · exact h

theorem expireAge_notChecked (c : CqId) {s : State} (h : s.admin.NotChecked) : (expireAge c s).admin.NotChecked := by
  unfold expireAge
  split <;> exact h

theorem expireGrace_notChecked {s : State} (h : s.admin.NotChecked) : (expireGrace s).admin.NotChecked := by
  unfold expireGrace
  split
  · exact lasts_notChecked.finishStep (s := { s with graceTimer := .expired }) h
  · exact h

theorem takeUp_notChecked {s : State} (h : s.admin.NotChecked) : (takeUp s).admin.NotChecked := by
  unfold takeUp
  split
  · refine (lasts_notChecked.grantAll _).mpr (lasts_notChecked.scheduler.settleClaim s ?_)
    exact fun _ _ => nofun
  · exact lasts_notChecked.settleDeferred h

theorem fetchIssue_notChecked {s : State} (h : s.admin.NotChecked) : (fetchIssue s).admin.NotChecked := by
  unfold fetchIssue
  split
  · refine (lasts_notChecked.grantAll _).mpr (lasts_notChecked.scheduler.settleClaim s ?_)
    exact h
  · exact lasts_notChecked.settleDeferred h

theorem disableApplied_notChecked {s : State} (h : s.admin.NotChecked) : (disableApplied s).admin.NotChecked := by
  unfold disableApplied
  split
  · next ht => exact lasts_notChecked.lookAgain ht
  · exact lasts_notChecked.settleDeferred h

/-- A row carries out the record it finds checked, or comes after it. -/
theorem exec_row_notChecked {i : Instr} {s t : State} (k : Nat) (hk : commandOf k = i) (htake : i ≠ .takeUp)
    (hfetch : i ≠ .fetchIssue) (hlook : i ≠ .disableQueueApplied) (h : exec i s = .next t) : t.admin.NotChecked := by
  by_cases hown : ∀ b v, s.admin = .executing b (.checked v) → i ≠ commandOf (adminOpcode b)
  · rw [exec_after_due htake hfetch hlook hown, ← hk, exec_commandOf_impossible (settleDue_nothingDue s)] at h
    cases h
    exact settleDue_notChecked s
  · push Not at hown
    obtain ⟨b, v, hb, rfl⟩ := hown
    rw [exec_commandOf_checked hb] at h
    cases h
    exact settleRecord_notChecked s

theorem exec_verdict {i : Instr} {s t : State} (he : EngineLaw s) (h : exec i s = .next t) : t.VerdictStands := by
  have hdue := settleDue_notChecked s
  have hrecord := settleRecord_notChecked s
  have hlook := lasts_notChecked.settleLook hrecord
  have hrow (k : Nat) (hk : commandOf k = i) (h1 : i ≠ .takeUp) (h2 : i ≠ .fetchIssue) (h3 : i ≠ .disableQueueApplied) :=
    (exec_row_notChecked k hk h1 h2 h3 h).stands
  cases i
  case setEngine => exact hrow opSetEngine rfl nofun nofun nofun
  case configureQueue => exact hrow opConfigureQueue rfl nofun nofun nofun
  case enableQueue => exact hrow opEnableQueue rfl nofun nofun nofun
  case disableQueue => exact hrow opDisableQueue rfl nofun nofun nofun
  case abortQueue => exact hrow opAbortQueue rfl nofun nofun nofun
  case resumeQueue => exact hrow opResumeQueue rfl nofun nofun nofun
  case configureCq => exact hrow opConfigureCq rfl nofun nofun nofun
  case loadAperture => exact hrow opLoadAperture rfl nofun nofun nofun
  case clearAperture => exact hrow opClearAperture rfl nofun nofun nofun
  case readStatistics => exact hrow opReadStatistics rfl nofun nofun nofun
  case queryQueue => exact hrow opQueryQueue rfl nofun nofun nofun
  case mark => exact hrow opMark rfl nofun nofun nofun
  case unknownOpcode => exact hrow 0 rfl nofun nofun nofun
  all_goals cases h
  case powerOnReset => exact lasts_notChecked.idle.stands
  case softReset v => exact (unlessHeld_notChecked hdue (writeControl_notChecked hdue v)).stands
  case runWritten1 v => exact (unlessHeld_notChecked hdue (writeControl_notChecked hdue v)).stands
  case runWritten0 v => exact (unlessHeld_notChecked hdue (writeControl_notChecked hdue v)).stands
  case notifyEnable v => exact (unlessHeld_notChecked hdue (writeControl_notChecked hdue v)).stands
  case flagsClear v => exact (unlessHeld_notChecked (f := writeFlags v) hdue hdue).stands
  case registerWrite => exact (portAccess_notChecked _ hdue).stands
  case misusedAccess => exact (portAccess_notChecked _ hdue).stands
  case postWork v => exact (unlessHeld_notChecked hdue (writePost_notChecked hdue v)).stands
  case postAdmin v => exact (unlessHeld_notChecked hdue (writePost_notChecked hdue v)).stands
  case cqAck v => exact (unlessHeld_notChecked hdue (writeAck_notChecked hdue v)).stands
  case disableQueueApplied => exact (disableApplied_notChecked hrecord).stands
  case takeUp => exact (takeUp_notChecked hlook).stands
  case fetchIssue => exact (fetchIssue_notChecked hlook).stands
  case dataOrAckResponse => exact takeResponse_verdict _ _ he
  case errorResponse => exact takeResponse_verdict _ _ he
  case requestTimeout tag => exact (takeTimeout_notChecked tag hdue).stands
  case lateResponse => exact takeResponse_verdict _ _ he
  case strayResponse => exact takeResponse_verdict _ _ he
  case ageTimerExpiry c => exact (expireAge_notChecked c hdue).stands
  case stopGraceExpiry => exact (expireGrace_notChecked hdue).stands

/-! ## While RESET_N is low (R180) -/

/-- A state but for the waiting commands, RESET_N and the model's counts. -/
def State.core (s : State) : State := { s with pending := [], heldEvents := 0, resetTurn := 0, claimTurn := 0 }

section
variable {s : State} (h : s.core = State.reset)
include h

theorem nothingDue_of_core : NothingDue s := by
  have hclaim : s.claimDeferred = false := congrArg State.claimDeferred h
  have hidle : s.admin = .idle := congrArg State.admin h
  exact (nothingDue_iff s).mpr ⟨hclaim, hidle ▸ lasts_notChecked.idle, lookDue_of_idle hidle⟩

/-- Nothing but the count of held accesses moves while RESET_N is low, but for the answer of a read. -/
theorem exec_core {i : Instr} {t : State} {n : Nat} (hheld : s.heldEvents = n + 1) (ht : exec i s = .next t) :
    t.core = State.reset := by
  have hd := nothingDue_of_core h
  have hengine : s.engine = .stopped := congrArg State.engine h
  have hgrace : s.graceTimer = .stopped := congrArg State.graceTimer h
  have hring (c : CqId) : (s.ring c).ageTimer = none := by
    have hreset : s.ring c = Ring.reset := (congrArg (State.ring · c) h).trans (Vector.getElem_replicate ..)
    rw [hreset]
    rfl
  have htag (g : TagId) : s.tag g = .free := (congrArg (State.tag · g) h).trans (Vector.getElem_replicate ..)
  obtain ⟨-, -, hread, hwrite, hlow⟩ := powerOnResetLeavesPowerOnValues.2 n s hheld hd
  have hsame (hi : exec i s = .next s) : t.core = State.reset := by
    rw [hi] at ht
    cases ht
    exact h
  have hcounted (hi : exec i s = .next { s with heldEvents := n }) : t.core = State.reset := by
    rw [hi] at ht
    cases ht
    exact h
  have hrow (k : Nat) (hk : commandOf k = i) : t.core = State.reset := hsame (hk ▸ exec_commandOf_impossible hd k)
  cases i with
  | powerOnReset =>
    cases ht
    rfl
  | misusedAccess a =>
    by_cases hw : a.isWrite = true
    · exact hcounted (hwrite a hw)
    · rw [hread a (by simpa using hw)] at ht
      cases ht
      exact congrArg (fun u : State => { u with readData := 0 }) h
  | softReset v => exact hcounted (hlow _ (.inl ⟨v, .inl rfl⟩))
  | runWritten1 v => exact hcounted (hlow _ (.inl ⟨v, by simp⟩))
  | runWritten0 v => exact hcounted (hlow _ (.inl ⟨v, by simp⟩))
  | notifyEnable v => exact hcounted (hlow _ (.inl ⟨v, by simp⟩))
  | flagsClear v => exact hcounted (hlow _ (.inl ⟨v, by simp⟩))
  | registerWrite off v => exact hcounted (hlow _ (.inl ⟨v, by simp⟩))
  | postWork v => exact hcounted (hlow _ (.inl ⟨v, by simp⟩))
  | postAdmin v => exact hcounted (hlow _ (.inl ⟨v, by simp⟩))
  | cqAck v => exact hcounted (hlow _ (.inl ⟨v, by simp⟩))
  | dataOrAckResponse tag a => exact hcounted (hlow _ (.inr ⟨tag, .ack, by simp⟩))
  | errorResponse tag => exact hcounted (hlow _ (.inr ⟨tag, .ack, by simp⟩))
  | lateResponse tag r => exact hcounted (hlow _ (.inr ⟨tag, r, by simp⟩))
  | strayResponse tag r => exact hcounted (hlow _ (.inr ⟨tag, r, by simp⟩))
  | setEngine => exact hrow opSetEngine rfl
  | configureQueue => exact hrow opConfigureQueue rfl
  | enableQueue => exact hrow opEnableQueue rfl
  | disableQueue => exact hrow opDisableQueue rfl
  | abortQueue => exact hrow opAbortQueue rfl
  | resumeQueue => exact hrow opResumeQueue rfl
  | configureCq => exact hrow opConfigureCq rfl
  | loadAperture => exact hrow opLoadAperture rfl
  | clearAperture => exact hrow opClearAperture rfl
  | readStatistics => exact hrow opReadStatistics rfl
  | queryQueue => exact hrow opQueryQueue rfl
  | mark => exact hrow opMark rfl
  | unknownOpcode => exact hrow 0 rfl
  | takeUp => exact hsame (exec_takeUp_impossible hd (canTakeUp_eq_false (.inl (by simp [hengine]))))
  | fetchIssue => exact hsame (exec_fetchIssue_impossible hd (fetchClaim_eq_none (.inr (.inr (by simp [hengine])))))
  | disableQueueApplied =>
    have hidle : s.admin = .idle := congrArg State.admin h
    exact hsame (exec_disableQueueApplied_impossible hd (by simp [hidle]))
  | requestTimeout g => exact hsame (exec_requestTimeout_impossible hd (by simp [htag g]))
  | ageTimerExpiry c => exact hsame (exec_ageTimerExpiry_impossible hd (hring c))
  | stopGraceExpiry => exact hsame (exec_stopGraceExpiry_impossible hd (by simp [hgrace]))

end

/-- RESET_N low holds the power-on values, before and after an event. -/
theorem exec_held {i : Instr} {s t : State} (hd : DueLaw s) (h : exec i s = .next t) (hn : t.heldEvents ≠ 0) :
    t.core = State.reset := by
  cases hs : s.heldEvents with
  | zero =>
    rcases exec_schedule hd h with k | ⟨u, rfl⟩
    · exact absurd (k.heldEvents hs) hn
    · rfl
  | succ n => exact exec_core (hd.2.2 (by simp [hs])) hs h

/-! ## Every step -/

theorem dueLaw_iff (s : State) :
    DueLaw s ↔ s.VerdictStands ∧ s.standing.Deferred ∧ (s.heldEvents ≠ 0 → s.core = State.reset) := by
  have hdeferred : s.standing.Deferred ↔ (s.claimDeferred = true → s.engine = .running ∧ s.active = none) := by
    simp [Standing.Deferred, State.standing]
  rw [hdeferred]
  rfl

theorem powerOnReset_dueLaw (s : State) : DueLaw (powerOnReset s) := ⟨fun _ _ => nofun, nofun, fun _ => rfl⟩

theorem exec_dueLaw {i : Instr} {s t : State} (he : EngineLaw s) (hd : DueLaw s) (h : exec i s = .next t) : DueLaw t := by
  rcases exec_schedule hd h with k | ⟨u, rfl⟩
  · exact (dueLaw_iff t).mpr ⟨exec_verdict he h, k.deferred ((dueLaw_iff s).mp hd).2.1, exec_held hd h⟩
  · exact powerOnReset_dueLaw u

theorem settleDue_dueLaw {s : State} (hd : DueLaw s) : DueLaw (settleDue s) := by
  obtain ⟨-, hdeferred, hheld⟩ := (dueLaw_iff s).mp hd
  have k := settleDue_schedule hd
  refine (dueLaw_iff _).mpr ⟨(settleDue_notChecked s).stands, k.deferred hdeferred, fun hn => ?_⟩
  have hcore := hheld fun h0 => hn (k.heldEvents h0)
  rwa [settleDue_of_nothingDue (nothingDue_of_core hcore)]

theorem step_dueLaw {s t : State} (he : EngineLaw s) (hd : DueLaw s) (h : step s = .next t) : DueLaw t := by
  unfold step at h
  split at h
  · cases h
    exact settleDue_dueLaw hd
  · next rest _ =>
    have hrest : EngineLaw { s with pending := rest } := he
    exact exec_dueLaw hrest (hd.pending rest) h

/-- Settles O55: `step_schedule` for R26 and R56; a record's data alone checks a record, and nothing comes after that check
(`takeAnswer_record_verdict`); while RESET_N is low nothing moves (`exec_core`). -/
theorem everyStepKeepsOwnershipAndQueueFlags : Obligations.EveryStepKeepsOwnershipAndQueueFlags := by
  intro s t hd h
  obtain ⟨howned, hflagged, -⟩ := resetMeetsEveryLaw
  refine ⟨fun he => step_dueLaw he hd h, fun ho => ?_⟩
  rcases step_schedule hd h with k | ⟨u, rfl⟩
  · have ho' := (ownershipLaw_iff s).mp ho
    exact ⟨(ownershipLaw_iff t).mpr (k.owned ho'), fun hf => (queueFlagLaw_iff t).mpr (k.flagged ho' ((queueFlagLaw_iff s).mp hf))⟩
  · exact ⟨howned, fun _ => hflagged⟩

end Sys2Proof.Machine
end

section
/-! PROOF. The resolutions that the fetch unit and the completion unit take (R62 to R66, R112, R115, R118, R121, R122): the
statements FetchDataFillsTheSlot, FetchFailureHaltsOrHolds, WrittenEntryMovesItsRingOn and FailedEntryWriteBreaksItsRing. -/

namespace Sys2Proof.Machine

/-! ## What a handed resolution leaves as it is (R98) -/

section
variable (tg : TagId) (r : Resolution) (s : State)

theorem handed_queue (q : WqId) : (handed tg r s).queue q = s.queue q := by cases r <;> rfl
theorem handed_ring (c : CqId) : (handed tg r s).ring c = s.ring c := by cases r <;> rfl
theorem handed_fetch : (handed tg r s).fetch = s.fetch := by cases r <;> rfl
theorem handed_reserved : (handed tg r s).reserved = s.reserved := by cases r <;> rfl
theorem handed_occupied : (handed tg r s).occupied = s.occupied := by cases r <;> rfl

end

/-! ## The fetch unit (R62 to R66) -/

section
variable {f : Fetch} {s : State}

theorem fetchTakes_failure {r : Resolution} (hf : s.fetch = some f) (hr : r = .error ∨ r = .timeout) :
    fetchTakes r s = fetchFailed f (r == .timeout) s := by
  rcases hr with rfl | rfl <;> simp only [fetchTakes, hf] <;> rfl

theorem fetchData_eq (b : List Byte) :
    fetchData f b s = claimFreed
      { s.setQueue f.queue
          { s.queue f.queue with slot := if (s.queue f.queue).slot = .filling true then .empty else .full b } with
        reserved := removeHolder .fetch s.reserved, fetch := none } := by
  unfold fetchData
  dsimp only
  split
  · next h =>
    rw [if_pos h]
    rfl
  · next h =>
    rw [if_neg h]
    rfl

/-- A fetch that fails cancelled only ends (R63). -/
theorem fetchFailed_cancelled (timeout : Bool) (h : (s.queue f.queue).slot = .filling true) :
    fetchFailed f timeout s = claimFreed
      (({ s with reserved := removeHolder .fetch s.reserved, fetch := none } : State).setQueue f.queue
        { s.queue f.queue with slot := .empty }) := by
  simp only [fetchFailed, h, if_true]
  rfl

theorem ownsContext_iff (d : Queue) : ownsContext d = true ↔ d.state = .running ∨ d.state = .suspended := by simp [ownsContext]

/-- A look-ahead that fails sets the hold (R65). -/
theorem fetchFailed_lookAhead (timeout : Bool) (h : (s.queue f.queue).slot ≠ .filling true)
    (ho : ownsContext (s.queue f.queue) = true) :
    fetchFailed f timeout s = claimFreed
      (({ s with reserved := removeHolder .fetch s.reserved, fetch := none } : State).setQueue f.queue
        { s.queue f.queue with slot := .empty, hold := true }) := by
  simp only [fetchFailed, h, ho, if_true, if_false]
  rfl

/-- Any other failed fetch halts its queue and leaves a FETCH_ERROR entry (R64, R66). -/
theorem fetchFailed_halts (timeout : Bool) (h : (s.queue f.queue).slot ≠ .filling true)
    (ho : ownsContext (s.queue f.queue) = false) :
    fetchFailed f timeout s = selectOnFree s
      (withEntry f.ring
        ⟨.fetchError, if timeout then .fetchTimeout else .fetchError, f.queue.val + 1, 0, (s.queue f.queue).head, 0,
          (s.queue f.queue).ringBase + 64 * (s.queue f.queue).head⟩ false
        (({ s with reserved := removeHolder .fetch s.reserved, fetch := none } : State).setQueue f.queue
          { s.queue f.queue with slot := .empty, state := .halted, haltCause := .fetch })) := by
  simp only [fetchFailed, h, ho, if_false, Bool.false_eq_true, place_eq_withEntry]
  rfl

end

/-- Settles O35: the fetch unit is handed the data (`exec_answerOf`) and does as `fetchData_eq` says. -/
theorem fetchDataFillsTheSlot : Obligations.FetchDataFillsTheSlot := by
  intro tg ad tm b f s hready htag hf d base
  obtain ⟨t, ht, hends⟩ := exec_answerOf (.data b) hready htag
  have htakes : fetchTakes (.data b) s = claimFreed base := by
    rw [← fetchData_eq b]
    simp only [fetchTakes, hf]
  rw [takenAs_data_self] at hends
  exact ⟨t, ht, htakes ▸ hends⟩

/-- Settles O36: the fetch unit is handed the failure, and each of its three cases is a lemma (`fetchFailed_cancelled`,
`fetchFailed_lookAhead`, `fetchFailed_halts`). -/
theorem fetchFailureHaltsOrHolds : Obligations.FetchFailureHaltsOrHolds := by
  intro tg r ad n tm f s hready hr htag hf d x released
  obtain ⟨t, ht, hends⟩ := exec_answerOf r hready htag
  have hqueue : x.queue f.queue = d := handed_queue tg r s f.queue
  have hreleased : ({ x with reserved := removeHolder .fetch x.reserved, fetch := none } : State) = released := by
    rw [handed_reserved tg r s]
  have htakes : fetchTakes r x = fetchFailed f (r == .timeout) x := fetchTakes_failure ((handed_fetch tg r s).trans hf) hr
  have htimeout : (r == .timeout) = true ↔ r = .timeout := beq_iff_eq
  rw [takenAs_failure .read n hr, resolve, htakes] at hends
  refine ⟨fun hslot => ⟨t, ht, ?_⟩, fun hslot hstate => ⟨t, ht, ?_⟩, fun hslot hrunning hsuspended => ⟨t, ht, ?_⟩⟩
  · rw [fetchFailed_cancelled _ (hqueue ▸ hslot), hqueue, hreleased] at hends
    exact hends
  · rw [fetchFailed_lookAhead _ (hqueue ▸ hslot) (hqueue ▸ (ownsContext_iff d).mpr hstate), hqueue, hreleased] at hends
    exact hends
  · have howns : ownsContext d = false := Bool.eq_false_iff.mpr (mt (ownsContext_iff d).mp (not_or.mpr ⟨hrunning, hsuspended⟩))
    rw [fetchFailed_halts _ (hqueue ▸ hslot) (hqueue ▸ howns), hqueue, hreleased, selectOnFree_congr _ (handed_freeEntries tg r s)]
      at hends
    simpa only [htimeout] using hends

/-! ## The completion unit (R112, R115, R118) -/

section
variable {c : CqId} {o : Occupied} {before after : List Occupied} (ho : o.ring = c) (hi : o.inFlight = true)
  (hb : ∀ p ∈ before, p.ring = c → p.inFlight = false)
include ho hi hb

/-- The entry of a ring whose write is in flight is the first one that is. -/
theorem entryInFlight_eq {s : State} (hs : s.occupied = before ++ o :: after) : entryInFlight s c = some o := by
  rw [entryInFlight, hs, List.find?_eq_some_iff_append]
  refine ⟨by simp [ho, hi], before, after, rfl, fun p hp => ?_⟩
  by_cases hc : p.ring = c
  · simp [hb p hp hc]
  · simp [hc]

theorem removeInFlight_eq : removeInFlight c (before ++ o :: after) = before ++ after := by
  induction before with
  | nil => simp [removeInFlight, ho, hi]
  | cons p ps ih =>
    have hp : ¬ (p.ring = c ∧ p.inFlight = true) := fun ⟨hc, ht⟩ => by
      simp [hb p List.mem_cons_self hc] at ht
    simp only [List.cons_append, removeInFlight, if_neg hp, ih fun q hq => hb q (List.mem_cons_of_mem p hq)]

end

/-- The next index of a ring is its wrap or its successor (R114). -/
theorem next_index {i n : Nat} (h : i < n) : (i + 1) % n = if i + 1 = n then 0 else i + 1 := by
  split
  · next he => rw [he, Nat.mod_self]
  · next hn => exact Nat.mod_eq_of_lt (by omega)

/-- The ring after its entry's write (R112, R115, R121, R122). -/
theorem writtenRing_eq {r : Ring} (o : Occupied) (h : r.tail < r.size) :
    writtenRing r o =
      { r with
        tail := if r.tail + 1 = r.size then 0 else r.tail + 1
        phase := if r.tail + 1 = r.size then !r.phase else r.phase
        written := min (r.written + 1) 4294967295
        unannounced := r.unannounced + 1
        notifyPending :=
          if r.threshold ≤ r.unannounced + 1 ∨ (o.entry.status ≠ .ok ∧ o.entry.status ≠ .mismatch) ∨ o.notifyNow = true then true
          else r.notifyPending
        ageTimer := if r.unannounced = 0 ∧ r.ageLimit ≠ 0 then some r.ageLimit else r.ageTimer } := by
  have hwraps : (if r.tail + 1 = r.size then 0 else r.tail + 1) = 0 ↔ r.tail + 1 = r.size := by
    split <;> simp [*]
  have hnotifies : entryNotifies r.threshold (r.unannounced + 1) o = true ↔
      r.threshold ≤ r.unannounced + 1 ∨ (o.entry.status ≠ .ok ∧ o.entry.status ≠ .mismatch) ∨ o.notifyNow = true := by
    simp [entryNotifies, or_assoc]
  have hpending : (r.notifyPending || entryNotifies r.threshold (r.unannounced + 1) o) =
      if r.threshold ≤ r.unannounced + 1 ∨ (o.entry.status ≠ .ok ∧ o.entry.status ≠ .mismatch) ∨ o.notifyNow = true then true
      else r.notifyPending := by
    simp only [← hnotifies]
    cases entryNotifies r.threshold (r.unannounced + 1) o <;> simp
  simp only [writtenRing, next_index h, hwraps, hpending]
  rfl

/-- Settles O37: the entry is the one whose write is in flight (`entryInFlight_eq`), and its ring moves on as `writtenRing_eq`
says. -/
theorem writtenEntryMovesItsRingOn : Obligations.WrittenEntryMovesItsRingOn := by
  intro tg c ad n tm o before after s hready htag hocc ho hi hb htail r wraps notifies base
  obtain ⟨t, ht, hends⟩ := exec_answerOf .ack hready htag
  have htakes : entryWritten c s = claimFreed base := by
    have hentry := entryInFlight_eq ho hi hb hocc
    simp only [entryWritten, hentry, writtenRing_eq o htail, hocc, removeInFlight_eq ho hi hb]
    rfl
  exact ⟨t, ht, htakes ▸ hends⟩

/-- A failed write of an entry (R118). -/
theorem ringBroken_eq {c : CqId} {s : State} (h : ∃ o ∈ s.occupied, o.ring = c ∧ o.inFlight = true) :
    ringBroken c s = claimFreed
      { s.setRing c
          { s.ring c with
            state := .broken
            discarded := min ((s.ring c).discarded + (s.occupied.filter fun o => o.ring = c).length) 4294967295 } with
        occupied := s.occupied.filter fun o => o.ring ≠ c } := by
  have hsome : (entryInFlight s c).isSome = true := by
    obtain ⟨o, hmem, ho, hi⟩ := h
    rw [entryInFlight, List.find?_isSome]
    exact ⟨o, hmem, by simp [ho, hi]⟩
  obtain ⟨o, ho⟩ := Option.isSome_iff_exists.mp hsome
  have hring (o : Occupied) : (o.ring == c) = decide (o.ring = c) := by
    rw [Bool.eq_iff_iff]
    simp
  have hkeep : (s.occupied.filter fun o => o.ring != c) = s.occupied.filter fun o => o.ring ≠ c :=
    List.filter_congr fun o _ => by simp [bne, hring]
  have hlost : (s.occupied.filter fun o => o.ring == c) = s.occupied.filter fun o => o.ring = c :=
    List.filter_congr fun o _ => hring o
  simp only [ringBroken, ho, hkeep, hlost]
  rfl

/-- Settles O38: the completion unit is handed the failure and does as `ringBroken_eq` says. -/
theorem failedEntryWriteBreaksItsRing : Obligations.FailedEntryWriteBreaksItsRing := by
  intro tg r c ad n tm s hready hr htag hflight lost base
  obtain ⟨t, ht, hends⟩ := exec_answerOf r hready htag
  have hfails : resolve (.completion c) r (handed tg r s) = ringBroken c (handed tg r s) := by rcases hr with rfl | rfl <;> rfl
  have hocc := handed_occupied tg r s
  rw [takenAs_failure .write n hr, hfails, ringBroken_eq (hocc ▸ hflight), handed_ring, hocc] at hends
  exact ⟨t, ht, hends⟩

end Sys2Proof.Machine
end

section
/-! PROOF. The abort of a stacked context (R33, R34, R42, R145): the statement AbortQueueEndsAStackedContext. -/

namespace Sys2Proof.Machine

/-- The entry of a context that ends ABORTED, and the place it leaves (R33, R42). -/
def abortTold (c : Context) (s : State) : State :=
  withEntry c.ring ⟨.aborted, .none, c.queue.val + 1, c.record.tag, (c.index + 1) % (s.queue c.queue).ringSize, c.done, 0⟩
    c.record.notifyNow { s with reserved := removeHolder (.context c.queue) s.reserved }

/-- The queue of a context that ends ABORTED: R34's first row. -/
def abortedQueue (d : Queue) : Queue :=
  { d with state := .disabled, drain := false, abortPending := false, hold := false
           endedAborted := min (d.endedAborted + 1) 4294967295 }

/-- The queue DISABLED, and the DRAINED notice of a drain (R34). -/
def abortNoted (c : Context) (s : State) : State :=
  let d := s.queue c.queue
  let left := (abortTold c s).setQueue c.queue (abortedQueue d)
  if d.drain then
    withEntry 0 ⟨.drained, .byAbort, c.queue.val + 1, 0, d.head, 0, 0⟩ false
      { left with reserved := removeHolder (.drain c.queue) left.reserved }
  else left

/-- A context that has left the stack ends ABORTED in this way. -/
theorem endContext_aborted (c : Context) (s : State) : endContext c .aborted .none c.done 0 true s = abortNoted c s := by
  rw [endContext_eq_withEnd]
  simp only [withEnd, reduceCtorEq, or_self, and_false, if_false, true_or, if_true, not_true_eq_false, false_and]
  rfl

@[simp] theorem withEntry_queue (c : CqId) (e : Entry) (now : Bool) (s : State) (q : WqId) :
    (withEntry c e now s).queue q = s.queue q := by
  unfold withEntry
  split <;> rfl

theorem abortNoted_queue (c : Context) (s : State) : (abortNoted c s).queue c.queue = abortedQueue (s.queue c.queue) := by
  have hleft : ((abortTold c s).setQueue c.queue (abortedQueue (s.queue c.queue))).queue c.queue = _ := State.setQueue_queue_self ..
  unfold abortNoted
  dsimp only
  split
  · rw [withEntry_queue]
    exact hleft
  · exact hleft

section
variable {s : State} {c : Context} {above below : List Context} {q : WqId}
  (hc : c.queue = q) (hstack : s.stack = above ++ c :: below) (habove : ∀ p ∈ above, p.queue ≠ q)
include hc hstack habove

theorem stackedContext_eq : stackedContext s q = some c := by
  rw [stackedContext, hstack, List.find?_eq_some_iff_append]
  exact ⟨by simp [hc], above, below, rfl, by simpa using habove⟩

theorem stack_erase : s.stack.eraseP (fun p => p.queue == c.queue) = above ++ below := by
  have hnone : ∀ p ∈ above, ¬ (p.queue == c.queue) = true := by simpa [hc] using habove
  rw [hstack, List.eraseP_append_right _ hnone, List.eraseP_cons_of_pos (by simp)]

end

theorem ownsActive_eq_false {s : State} {q : WqId} (h : ∀ p ∈ s.active, p.queue ≠ q) : ownsActive s q = false := by
  unfold ownsActive
  split
  · next c ha => exact decide_eq_false (h c ha)
  · rfl

/-- Settles O23: the stacked context ends as `endContext_aborted` says, and the abort is finished on the queue it has left
(`finishAbort_eq`). -/
theorem abortQueueEndsAStackedContext : Obligations.AbortQueueEndsAStackedContext := by
  intro b q c above below n s h hindex hc hstack habove hactive hhead htail hn d out told left noted e base
  subst hc
  have hnoted : abortStacked c s = noted := by
    rw [abortStacked, stack_erase rfl hstack habove, endContext_aborted]
    rfl
  have hqueue : noted.queue c.queue = abortedQueue d := abortNoted_queue c { s with stack := above ++ below }
  have hposted : (noted.queue c.queue).posted = n := by
    rw [hqueue]
    exact posted_eq (d := d) (.inr ⟨hhead, htail, hn⟩)
  have hrun : abortQueue b s = base := by
    obtain ⟨slot, hslot⟩ := emptySlot_queue_self c.queue noted
    have hdone : abortQueue b s = finishAbort b c.queue .stacked noted := by
      simp only [abortQueue, adminQueue_of_index hindex, ownsActive_eq_false hactive, stackedContext_eq rfl hstack habove, hnoted]
      rfl
    rw [hdone, finishAbort_eq .stacked hposted, completeAdmin_eq_withCompletion]
    show withCompletion (e.setQueue c.queue _) b .ok .stacked n = withCompletion (e.setQueue c.queue _) b .ok .stacked n
    rw [show e.queue c.queue = _ from hslot, hqueue]
    rfl
  exact hrun ▸ row_carries rfl h (stateRefusal_of_none s h.opcode (by decide))

end Sys2Proof.Machine
end

section
/-! PROOF. The start of a stop (R33, R34, R46, R71, R156, R163, R164): the statement RunWrittenZeroBeginsTheStop. -/

namespace Sys2Proof.Machine

/-! ## The stacked contexts end, top first (R46) -/

section
variable (s : State) (l : List Context)

theorem place_stack (h : Holder) (c : CqId) (e : Entry) (x n : Bool) :
    place h c e x n { s with stack := l } = { place h c e x n s with stack := l } := by
  have hring : (release h { s with stack := l }).ring c = (release h s).ring c := rfl
  simp only [place, hring]
  split_ifs <;> rfl

theorem emptySlot_stack (q : WqId) : emptySlot q { s with stack := l } = { emptySlot q s with stack := l } := by
  have hwaits : fetchWaitsFor { s with stack := l } q = fetchWaitsFor s q := rfl
  have hqueue : ({ s with stack := l } : State).queue q = s.queue q := rfl
  simp only [emptySlot, hwaits, hqueue]
  cases (s.queue q).slot with
  | empty => rfl
  | full b => rfl
  | filling cancelled =>
    cases cancelled with
    | true => rfl
    | false => cases fetchWaitsFor s q <;> rfl

/-- An end does not look at the stack. -/
theorem endContext_stack (c : Context) (st : Status) (sub : Sub) (p d : Nat) (byAbort : Bool) :
    endContext c st sub p d byAbort { s with stack := l } = { endContext c st sub p d byAbort s with stack := l } := by
  have hqueue (q : WqId) : ({ s with stack := l } : State).queue q = s.queue q := rfl
  have hnext (d : Queue) : nextState { s with stack := l } d st byAbort = nextState s d st byAbort := rfl
  have hset (x : State) (q : WqId) (d : Queue) :
      ({ x with stack := l } : State).setQueue q d = { x.setQueue q d with stack := l } := rfl
  have hnotice (x : State) (q : WqId) (n : NextState) :
      placeNotice q n { x with stack := l } = { placeNotice q n x with stack := l } := place_stack x l ..
  simp only [endContext, hqueue, hnext, place_stack, hset, hnotice]
  split <;> split <;> simp only [emptySlot_stack]

end

/-- The ends of a stack, top first. -/
theorem endStackStopped_eq (l : List Context) (s : State) :
    endStackStopped l s = l.foldl (fun x c => withEnd c .stopped .none c.done 0 false x) { s with stack := [] } := by
  induction l generalizing s with
  | nil => rfl
  | cons c rest ih =>
    rw [endStackStopped, ih, List.foldl_cons, ← endContext_eq_withEnd, endContext_stack, ← endContext_stack s []]

/-! ## What the stop leaves as it is -/

/-- The fields of a descriptor that no end and no stop changes: the ring's and the settings (R50, R140). -/
structure QueueRing where
  base : Nat
  size : Nat
  level : Nat
  ring : Option CqId
  policy : FaultPolicy
  head : Nat
  tail : Nat

def Queue.fixed (d : Queue) : QueueRing := ⟨d.ringBase, d.ringSize, d.level, d.ring, d.policy, d.head, d.tail⟩

/-- What a stop leaves as it is. -/
structure StopFrame where
  run : Bool
  notifyEnable : Bool
  rootLo : Reg
  rootHi : Reg
  flags : StickyFlags
  requestTimeout : Nat
  stopGrace : Nat
  active : Option Context
  stack : List Context
  currentLevel : Nat
  startOrder : List WqId
  segment : Option Segment
  apertures : Vector Aperture 16
  waitingUpdate : Option ApertureUpdate
  queue : WqId → QueueRing

def State.stopFrame (s : State) : StopFrame :=
  { run := s.run, notifyEnable := s.notifyEnable, rootLo := s.rootLo, rootHi := s.rootHi, flags := s.flags
    requestTimeout := s.requestTimeout, stopGrace := s.stopGrace, active := s.active, stack := s.stack
    currentLevel := s.currentLevel, startOrder := s.startOrder, segment := s.segment.map Segment.unissued
    apertures := s.apertures, waitingUpdate := s.waitingUpdate, queue := fun q => (s.queue q).fixed }

theorem setQueue_stopFrame {s : State} {q : WqId} {d : Queue} (h : d.fixed = (s.queue q).fixed) :
    (s.setQueue q d).stopFrame = s.stopFrame := by
  have hqueue (p : WqId) : ((s.setQueue q d).queue p).fixed = (s.queue p).fixed := by
    rw [State.setQueue_queue]
    split
    · next hp => rw [h, hp]
    · rfl
  simp only [State.stopFrame, hqueue]
  rfl

theorem place_stopFrame (h : Holder) (c : CqId) (e : Entry) (x n : Bool) (s : State) :
    (place h c e x n s).stopFrame = s.stopFrame := by
  rcases place_cases h c e x n s with ⟨_, hp⟩ | ⟨_, _, hp⟩ | ⟨_, _, hp⟩ <;> rw [hp] <;> rfl

theorem emptySlot_stopFrame (q : WqId) (s : State) : (emptySlot q s).stopFrame = s.stopFrame := by
  rcases emptySlot_cases q s with ⟨_, h⟩ | ⟨_, h⟩ | ⟨_, _, h⟩ | ⟨_, _, h⟩ <;> rw [h]
  all_goals exact setQueue_stopFrame (s := s) rfl

theorem endContext_stopFrame (c : Context) (st : Status) (sub : Sub) (p d : Nat) (byAbort : Bool) (s : State) :
    (endContext c st sub p d byAbort s).stopFrame = s.stopFrame := by
  unfold endContext
  extract_lets q n entry suppressed s1 s2 s3
  have h1 : s1.stopFrame = s.stopFrame := place_stopFrame ..
  have hqueue : s1.queue c.queue = q := place_queue ..
  have h2 : s2.stopFrame = s.stopFrame := (setQueue_stopFrame (s := s1) (by rw [hqueue]; rfl)).trans h1
  have h3 : s3.stopFrame = s.stopFrame := by
    show (if q.drain = true then placeNotice c.queue n s2 else s2).stopFrame = s.stopFrame
    split
    · exact (place_stopFrame ..).trans h2
    · exact h2
  split
  · exact (emptySlot_stopFrame ..).trans h3
  · exact h3

theorem endStackStopped_stopFrame (l : List Context) (s : State) :
    (endStackStopped l s).stopFrame = { s.stopFrame with stack := [] } := by
  induction l generalizing s with
  | nil => rfl
  | cons c rest ih =>
    rw [endStackStopped, ih, endContext_stopFrame]
    rfl

theorem stopQueue_stopFrame (q : WqId) (s : State) : (stopQueue q s).stopFrame = s.stopFrame := by
  unfold stopQueue
  dsimp only
  split
  · refine .trans (setQueue_stopFrame ?_) (emptySlot_stopFrame q s)
    rfl
  · exact emptySlot_stopFrame q s

theorem stopQueues_stopFrame (l : List WqId) (s : State) : (l.foldl (fun x q => stopQueue q x) s).stopFrame = s.stopFrame := by
  induction l generalizing s with
  | nil => rfl
  | cons q rest ih => rw [List.foldl_cons, ih, stopQueue_stopFrame]

theorem enterStopping_eq (s : State) : enterStopping s = allQueues.foldl (fun x q => stopQueue q x) (stackStopped s) := rfl

theorem enterStopping_stopFrame (s : State) : (enterStopping s).stopFrame = { s.stopFrame with stack := [] } := by
  rw [enterStopping_eq, stopQueues_stopFrame]
  exact endStackStopped_stopFrame _ _

theorem grantAll_stopFrame (s : State) : (grantAll s).stopFrame = s.stopFrame := by
  have hi := grantAll_onlyIssues s
  obtain ⟨-, hrun, hnotify, hlo, hhi, hflags, -, -, -, hgrace, -, -, -, -, hlevel, hactive, hstack, horder, hap, hwait, -⟩ :=
    hi.fields
  have hsegment : (grantAll s).segment.map Segment.unissued = s.segment.map Segment.unissued := congrArg State.segment hi.1
  simp only [State.stopFrame, hi.queue, hrun, hnotify, hlo, hhi, hflags, hi.requestTimeout, hgrace, hlevel, hactive, hstack, horder,
    hap, hwait, hsegment]

theorem reachStopped_stopFrame (s : State) : (reachStopped s).stopFrame = s.stopFrame := by
  rw [reachStopped_eq]
  split_ifs <;> rfl

theorem stopProgress_stopFrame (s : State) : (stopProgress s).stopFrame = s.stopFrame := by
  rcases stopProgress_cases s with h | ⟨-, -, h⟩ | ⟨-, -, h | h⟩ <;> rw [h]
  · rfl
  · exact reachStopped_stopFrame s
  · exact reachStopped_stopFrame (dropOccupied s)

theorem finishStep_stopFrame (s : State) : (finishStep s).stopFrame = s.stopFrame :=
  (grantAll_stopFrame _).trans (stopProgress_stopFrame s)

/-! ## The queues of an engine that stops (R71) -/

/-- A queue as the start of a stop leaves it: neither IDLE nor HALTED, its slot EMPTY or a cancelled fetch's. -/
def Queue.Stopped (d : Queue) : Prop :=
  d.state ≠ .idle ∧ d.state ≠ .halted ∧ (d.slot = .empty ∨ d.slot = .filling true)

theorem emptySlot_slot (q : WqId) (s : State) :
    ((emptySlot q s).queue q).slot = .empty ∨ ((emptySlot q s).queue q).slot = .filling true := by
  rcases emptySlot_cases q s with ⟨hs, h⟩ | ⟨_, h⟩ | ⟨_, _, h⟩ | ⟨_, _, h⟩ <;> rw [h]
  · exact hs
  · exact .inl (congrArg Queue.slot (State.setQueue_queue_self ..))
  · exact .inl (congrArg Queue.slot (State.setQueue_queue_self ..))
  · exact .inr (congrArg Queue.slot (State.setQueue_queue_self ..))

theorem stopQueue_stopped (q : WqId) (s : State) : ((stopQueue q s).queue q).Stopped := by
  have hslot := emptySlot_slot q s
  unfold stopQueue
  dsimp only
  split
  · rw [State.setQueue_queue_self]
    exact ⟨nofun, nofun, hslot⟩
  · next hstate =>
    obtain ⟨hidle, hhalted⟩ := not_or.mp hstate
    exact ⟨hidle, hhalted, hslot⟩

theorem emptySlot_queue_of_ne {p q : WqId} (h : p ≠ q) (s : State) : (emptySlot q s).queue p = s.queue p := by
  have hset (d : Queue) : (s.setQueue q d).queue p = s.queue p := by rw [State.setQueue_queue, if_neg h]
  rcases emptySlot_cases q s with ⟨_, he⟩ | ⟨_, he⟩ | ⟨_, _, he⟩ | ⟨_, _, he⟩ <;> rw [he]
  · exact hset _
  · exact hset _
  · exact hset _

theorem stopQueue_queue_of_ne {p q : WqId} (h : p ≠ q) (s : State) : (stopQueue q s).queue p = s.queue p := by
  unfold stopQueue
  dsimp only
  split
  · rw [State.setQueue_queue, if_neg h, emptySlot_queue_of_ne h]
  · exact emptySlot_queue_of_ne h s

theorem stopQueues_stopped (p : WqId) (l : List WqId) (s : State) (h : (s.queue p).Stopped ∨ p ∈ l) :
    ((l.foldl (fun x q => stopQueue q x) s).queue p).Stopped := by
  induction l generalizing s with
  | nil => exact h.resolve_right List.not_mem_nil
  | cons q rest ih =>
    refine ih _ ?_
    by_cases hpq : p = q
    · exact .inl (hpq ▸ stopQueue_stopped p s)
    · rw [stopQueue_queue_of_ne hpq]
      exact h.imp_right fun hm => (List.mem_cons.mp hm).resolve_left hpq

theorem enterStopping_engine (s : State) : (enterStopping s).engine = .stopping :=
  (enterStopping_steady s).engine.trans (congrArg HostPart.engine (stackStopped_hostPart s))

theorem enterStopping_run (s : State) : (enterStopping s).run = s.run :=
  (enterStopping_steady s).run.trans (congrArg HostPart.run (stackStopped_hostPart s))

theorem enterStopping_stopped (s : State) (q : WqId) : ((enterStopping s).queue q).Stopped := by
  rw [enterStopping_eq]
  exact stopQueues_stopped q allQueues _ (.inr (mem_allQueues q))

theorem stopProgress_queues (s : State) : (stopProgress s).queues = s.queues := by
  have hreach (u : State) : (reachStopped u).queues = u.queues := by
    rw [reachStopped_eq]
    split_ifs <;> rfl
  rcases stopProgress_cases s with h | ⟨-, -, h⟩ | ⟨-, -, h | h⟩ <;> rw [h]
  · exact hreach s
  · exact hreach (dropOccupied s)

theorem finishStep_queue (s : State) (q : WqId) : (finishStep s).queue q = s.queue q := by
  rw [finishStep, (grantAll_onlyIssues _).queue, State.queue, stopProgress_queues]
  rfl

/-- With RUN 0 a stop ends in STOPPED, if it ends (R165). -/
theorem finishStep_engine {s : State} (he : s.engine = .stopping) (hr : s.run = false) :
    (finishStep s).engine = .stopping ∨ (finishStep s).engine = .stopped := by
  have hreach (u : State) (hu : u.run = false) : (reachStopped u).engine = .stopped := by
    rw [reachStopped_eq, if_pos hu]
    rfl
  obtain ⟨-, -, -, -, -, -, hengine, -⟩ := (grantAll_onlyIssues (stopProgress s)).fields
  rw [finishStep, hengine]
  rcases stopProgress_cases s with h | ⟨-, -, h⟩ | ⟨-, -, h | h⟩ <;> rw [h]
  · exact .inl he
  · exact .inl he
  · exact .inr (hreach s hr)
  · exact .inr (hreach (dropOccupied s) hr)

/-- Settles O6: the ends of the stack are `endStackStopped_eq`, each queue is stopped as `stopQueue` says, and the stop's progress
leaves both and the frame alone (`finishStep_stopFrame`, `finishStep_queue`). -/
theorem runWrittenZeroBeginsTheStop : Obligations.RunWrittenZeroBeginsTheStop := by
  intro v s hready h0 h2 hrun hengine entered unstacked quieted
  let started : State := { s with run := false, notifyEnable := v.getLsbD 1 }
  have hexec : exec (.runWritten0 v) s = .next (finishStep (enterStopping started)) := by
    rw [exec_runWritten0 hready, writeControl_run0 h2 h0 hrun, runTo0]
    simp only [hengine]
    rfl
  have hclaim : s.claimDeferred = false := hready.2.1
  have hentered : ({ entered with claimDeferred := false } : State) = entered :=
    congrArg (fun x => { entered with claimDeferred := x }) hclaim.symm
  have hunstacked : stackStopped started = unstacked := by
    rw [stackStopped, endStackStopped_eq]
    exact congrArg (fun x => s.stack.foldl (fun x c => withEnd c .stopped .none c.done 0 false x) x) hentered
  have hquieted : (fun x q => stopQueue q x) = quieted := rfl
  have hbase : enterStopping started = allQueues.foldl quieted unstacked := by
    rw [enterStopping_eq, hunstacked, hquieted]
  have hstopping := enterStopping_engine started
  have hrunning : (enterStopping started).run = false := enterStopping_run started
  have hframe := (finishStep_stopFrame (enterStopping started)).trans (enterStopping_stopFrame started)
  have hengines := finishStep_engine hstopping hrunning
  have hstopped (q : WqId) : ((finishStep (enterStopping started)).queue q).Stopped := by
    rw [finishStep_queue]
    exact enterStopping_stopped started q
  have hends : EndsAs (allQueues.foldl quieted unstacked) (finishStep (enterStopping started)) := congrArg finishStep hbase
  generalize finishStep (enterStopping started) = t at hexec hframe hengines hstopped hends
  refine ⟨t, hexec, hends, congrArg StopFrame.run hframe, congrArg StopFrame.notifyEnable hframe, hengines,
    congrArg StopFrame.stack hframe, congrArg StopFrame.active hframe, congrArg StopFrame.currentLevel hframe,
    congrArg StopFrame.startOrder hframe, congrArg StopFrame.segment hframe, congrArg StopFrame.apertures hframe,
    congrArg StopFrame.waitingUpdate hframe, congrArg StopFrame.rootLo hframe, congrArg StopFrame.rootHi hframe,
    congrArg StopFrame.flags hframe, congrArg StopFrame.requestTimeout hframe, congrArg StopFrame.stopGrace hframe, fun q => ?_⟩
  have hqueue : (t.queue q).fixed = (s.queue q).fixed := congrArg (StopFrame.queue · q) hframe
  obtain ⟨hidle, hhalted, hslot⟩ := hstopped q
  exact ⟨hidle, hhalted, hslot, congrArg QueueRing.base hqueue, congrArg QueueRing.size hqueue, congrArg QueueRing.level hqueue,
    congrArg QueueRing.ring hqueue, congrArg QueueRing.policy hqueue, congrArg QueueRing.head hqueue,
    congrArg QueueRing.tail hqueue⟩

end Sys2Proof.Machine
end
